-- ==== Sys2Proof/Word.lean ====
section
/-!
DEFINITION. The words the AX-178 frame parser handles as bits: a byte of the stream, the 24-bit BitField, the
9-bit ModeKey, the 17-bit magnitude and the 80-bit sink record (00_scope.md R5, R9).
-/

namespace Sys2Proof

/-- One byte of the stream, bit 0 of weight 1 (00_scope.md R9). -/
abbrev Byte := BitVec 8

/-- The BitField: the little-endian view of a frame's first three bytes (00_scope.md R5, BF_W = 24). -/
abbrev BitField := BitVec 24

/-- The ModeKey: BitField indices 3 to 11 (00_scope.md R5, KEY_W = 9). -/
abbrev ModeKey := BitVec 9

/-- The magnitude as the records hold it, 17 bits (30_encoding.md R75). -/
abbrev Magnitude := BitVec 17

/-- One record on the sink port, 80 bits (30_encoding.md R80). -/
abbrev RecordWord := BitVec 80

end Sys2Proof
end

