-- ==== Sys2Proof/Syntax.lean ====
section
/-!
DEFINITION. The syntax of what the block decodes: the modes, the unit labels, the parts of an 8-byte frame, and
Instr, one constructor for each row of spec/opcode_table.json (30_encoding.md R70 to R88).
-/

namespace Sys2Proof

/-- The 15 modes in the source's list order, which is their index m (30_encoding.md R77). -/
inductive Mode where
  | vac | pct | mvdc | nf | vdc | ohm | mvacdc | uaac | dbm | vf | mvac | uadc | adc | hz | uaacdc
  deriving DecidableEq, Repr

/-- The modes, in index order. -/
def Mode.all : List Mode :=
  [.vac, .pct, .mvdc, .nf, .vdc, .ohm, .mvacdc, .uaac, .dbm, .vf, .mvac, .uadc, .adc, .hz, .uaacdc]

/-- The 23 units the decoder can report, in the order of their codes 0 to 22 (30_encoding.md R78). Codes 23 to
31 are reserved and never produced, so no constructor stands for one. `maAc` is the label `ma AC`, kept as the
source writes it (R79). -/
inductive UnitLabel where
  | vAc | percent | mvDc | nf | vDc | ohm | mvAcDc | uaAc | dbm | vf | mvAc | uaDc | aDc | hz | uaAcDc
  | megaOhm | kiloOhm | uf | aAc | mAAcDc | aAcDc | mADc | maAc
  deriving DecidableEq, Repr

/-- The BitField outside the ModeKey: the seven special bits of 30_encoding.md R71 and the eight unused bits of
R73, `unusedLow` = BF[20:15] and `unusedHigh` = BF[23:22]. -/
structure Specials where
  /-- BF[0], multiply the value by 10. -/
  x10 : Bool
  /-- BF[1], k Ohm or the x100 of V AC. -/
  sel1 : Bool
  /-- BF[2], M Ohm or uF. -/
  sel2 : Bool
  /-- BF[12], the four "bit 12" rewrites. -/
  alt : Bool
  /-- BF[13], the OVERFLOW sentinel. -/
  ol : Bool
  /-- BF[14], % to nF. -/
  cap : Bool
  /-- BF[21], the sign bit. -/
  sign : Bool
  /-- BF[20:15], read by no decode step. -/
  unusedLow : BitVec 6
  /-- BF[23:22], read by no decode step. -/
  unusedHigh : BitVec 2
  deriving DecidableEq, Repr

/-- Five decimal digits, most significant first: what a DigitField whose bytes are all valid stands for
(30_encoding.md R75, R76). -/
structure Digits where
  d0 : Fin 10
  d1 : Fin 10
  d2 : Fin 10
  d3 : Fin 10
  d4 : Fin 10
  deriving DecidableEq, Repr

/-- The DigitField as it came, five unchecked bytes F[3] to F[7] (40_bitfield_extract.md R101). -/
structure RawDigits where
  b0 : Byte
  b1 : Byte
  b2 : Byte
  b3 : Byte
  b4 : Byte
  deriving DecidableEq, Repr

/-- A frame: 8 bytes in arrival order (30_encoding.md R70). -/
structure Frame where
  f0 : Byte
  f1 : Byte
  f2 : Byte
  f3 : Byte
  f4 : Byte
  f5 : Byte
  f6 : Byte
  f7 : Byte
  deriving DecidableEq, Repr

/-- What one full frame stands for: one constructor for each row of spec/opcode_table.json. A mode's row carries
the BitField outside the key and the five digits; the key itself is the row's. UNKNOWN and BADDIGIT report the
key they saw, and RAW carries the literal BitField. -/
inductive Instr where
  | vac (b : Specials) (d : Digits)
  | vacMadc (b : Specials) (d : Digits)
  | pct (b : Specials) (d : Digits)
  | pctNf (b : Specials) (d : Digits)
  | pctUf (b : Specials) (d : Digits)
  | mvdc (b : Specials) (d : Digits)
  | mvdcAac (b : Specials) (d : Digits)
  | nf (b : Specials) (d : Digits)
  | nfUf (b : Specials) (d : Digits)
  | vdc (b : Specials) (d : Digits)
  | vdcMaacdc (b : Specials) (d : Digits)
  | ohm (b : Specials) (d : Digits)
  | ohmK (b : Specials) (d : Digits)
  | ohmM (b : Specials) (d : Digits)
  | mvacdc (b : Specials) (d : Digits)
  | uaac (b : Specials) (d : Digits)
  | dbm (b : Specials) (d : Digits)
  | dbmMaac (b : Specials) (d : Digits)
  | vf (b : Specials) (d : Digits)
  | mvac (b : Specials) (d : Digits)
  | mvacAacdc (b : Specials) (d : Digits)
  | uadc (b : Specials) (d : Digits)
  | adc (b : Specials) (d : Digits)
  | hz (b : Specials) (d : Digits)
  | uaacdc (b : Specials) (d : Digits)
  | unknown (k : ModeKey) (b : Specials) (d : Digits)
  | badDigit (k : ModeKey) (b : Specials) (r : RawDigits)
  | raw (bf : BitField) (r : RawDigits)
  deriving DecidableEq, Repr

end Sys2Proof
end

