-- ==== Sys2Proof/Config.lean ====
section
/-!
DEFINITION. What an implementation fixes: the spec's parameters (00_scope.md R5 to R8). The fixed ones are plain
numbers, the open ones are opaque constants that no proof can evaluate.
-/

namespace Sys2Proof

/-- The two stream timeouts in milliseconds, TMO_W = 16 bits each (00_scope.md R6, R8). -/
structure Params where
  /-- T_SHORT, the read timeout while the block aligns. -/
  tShort : BitVec 16
  /-- T_LONG, the read timeout of the steady state. -/
  tLong : BitVec 16
  deriving DecidableEq, Repr

/-- FRAME_LEN: a frame is 8 bytes (00_scope.md R5). -/
abbrev Config.frameLen : Nat := 8

/-- JUNK_LEN: the junk read asks for 16 bytes (00_scope.md R5). -/
abbrev Config.junkLen : Nat := 16

/-- MAG_MAX: the largest magnitude (00_scope.md R5). -/
abbrev Config.magMax : Nat := 99999

/-- The default values of T_SHORT and T_LONG, 50 and 400 ms (00_scope.md R6). -/
def Config.defaultParams : Params := { tShort := 50, tLong := 400 }

/-- The open choice behind the 15 key values (00_scope.md R7): nothing is known of it. -/
opaque Config.keyChoice : Mode → ModeKey

/-- KEY_m, the open key of mode m (00_scope.md R7). The keys are pairwise distinct, and that is all the spec says
of them: where the open choice is not injective, the mode's index stands in, so that every admissible assignment
and no other is possible. UNVERIFIED values, log entry 5. -/
def Config.key (m : Mode) : ModeKey :=
  if (Mode.all.map Config.keyChoice).Nodup then Config.keyChoice m else BitVec.ofNat 9 m.ctorIdx

/-- DECODE_LATENCY, in clock cycles, OPEN (00_scope.md R8). No rule depends on it and nothing reads it; log
entry 7. -/
opaque Config.decodeLatency : Nat

end Sys2Proof
end

