-- ==== Sys2Proof/Machine/ModeTable.lean ====
section
/-!
DEFINITION. The ModeTable ROM (10_state.md R34, 20_memory.md R58): 15 entries of key, base unit and divisor
exponent, their contents (30_encoding.md R77), and the lookup, which is the ROM's only reader (41_mode_lookup.md
R120).
-/

namespace Sys2Proof.Machine

/-- One ROM entry: KEY_m (9 bits), BASE_UNIT_m and DIVEXP_m (3 bits; the divisor is 10^DIVEXP_m). -/
structure ModeEntry where
  key : ModeKey
  baseUnit : UnitLabel
  divExp : BitVec 3
  deriving DecidableEq, Repr

/-- The ROM, entry m under the name of mode m. -/
structure ModeTable where
  vac : ModeEntry
  pct : ModeEntry
  mvdc : ModeEntry
  nf : ModeEntry
  vdc : ModeEntry
  ohm : ModeEntry
  mvacdc : ModeEntry
  uaac : ModeEntry
  dbm : ModeEntry
  vf : ModeEntry
  mvac : ModeEntry
  uadc : ModeEntry
  adc : ModeEntry
  hz : ModeEntry
  uaacdc : ModeEntry
  deriving DecidableEq, Repr

/-- Entry m of the ROM. -/
def ModeTable.entry (t : ModeTable) : Mode → ModeEntry
  | .vac => t.vac
  | .pct => t.pct
  | .mvdc => t.mvdc
  | .nf => t.nf
  | .vdc => t.vdc
  | .ohm => t.ohm
  | .mvacdc => t.mvacdc
  | .uaac => t.uaac
  | .dbm => t.dbm
  | .vf => t.vf
  | .mvac => t.mvac
  | .uadc => t.uadc
  | .adc => t.adc
  | .hz => t.hz
  | .uaacdc => t.uaacdc

/-- BASE_UNIT_m (30_encoding.md R77). -/
def baseUnitOf : Mode → UnitLabel
  | .vac => .vAc
  | .pct => .percent
  | .mvdc => .mvDc
  | .nf => .nf
  | .vdc => .vDc
  | .ohm => .ohm
  | .mvacdc => .mvAcDc
  | .uaac => .uaAc
  | .dbm => .dbm
  | .vf => .vf
  | .mvac => .mvAc
  | .uadc => .uaDc
  | .adc => .aDc
  | .hz => .hz
  | .uaacdc => .uaAcDc

/-- DIVEXP_m, log10 of the divisor (30_encoding.md R77). -/
def divExpOf : Mode → BitVec 3
  | .vac => 4
  | .pct => 2
  | .mvdc => 3
  | .nf => 2
  | .vdc => 4
  | .ohm => 2
  | .mvacdc => 2
  | .uaac => 2
  | .dbm => 2
  | .vf => 4
  | .mvac => 3
  | .uadc => 2
  | .adc => 4
  | .hz => 3
  | .uaacdc => 2

/-- The entry of mode m for a choice of the keys. -/
def entryOf (key : Mode → ModeKey) (m : Mode) : ModeEntry :=
  { key := key m, baseUnit := baseUnitOf m, divExp := divExpOf m }

/-- The ROM of 30_encoding.md R77 for a choice of the 15 keys. -/
def ModeTable.ofKeys (key : Mode → ModeKey) : ModeTable where
  vac := entryOf key .vac
  pct := entryOf key .pct
  mvdc := entryOf key .mvdc
  nf := entryOf key .nf
  vdc := entryOf key .vdc
  ohm := entryOf key .ohm
  mvacdc := entryOf key .mvacdc
  uaac := entryOf key .uaac
  dbm := entryOf key .dbm
  vf := entryOf key .vf
  mvac := entryOf key .mvac
  uadc := entryOf key .uadc
  adc := entryOf key .adc
  hz := entryOf key .hz
  uaacdc := entryOf key .uaacdc

/-- The ROM of this machine, with the open keys of 00_scope.md R7. -/
def modeTable : ModeTable := ModeTable.ofKeys Config.key

/-- LOOKUP (41_mode_lookup.md R120): the mode whose entry holds the key, or none. -/
def ModeTable.lookup (t : ModeTable) (k : ModeKey) : Option Mode :=
  Mode.all.find? fun m => (t.entry m).key == k

end Sys2Proof.Machine
end

