-- ==== Sys2Proof/Machine/Ports.lean ====
section
/-!
DEFINITION. The stream port's commands and responses with their codes (30_encoding.md R90, R91), and what the
environment presents to the block in one step (10_state.md R20, 43_resync_fsm.md R180).
-/

namespace Sys2Proof.Machine

/-- A stream command (30_encoding.md R90). -/
inductive Command where
  /-- CMD 1, ARG the timeout in milliseconds. -/
  | setTimeout (ms : BitVec 16)
  /-- CMD 2, ARG the byte count. -/
  | read (n : BitVec 16)
  /-- CMD 3, ARG 0. -/
  | close
  deriving DecidableEq, Repr

/-- The 2-bit CMD code; no command outstanding is code 0 (30_encoding.md R90). -/
def cmdCode : Option Command → BitVec 2
  | none => 0
  | some (.setTimeout _) => 1
  | some (.read _) => 2
  | some .close => 3

/-- The 16-bit ARG of a command (30_encoding.md R90, which gives it for CMD 1 to 3). DESIGN CHOICE: with no command
outstanding, CMD 0, the model makes ARG 0; R90 gives none there (log entry 17). -/
def cmdArg : Option Command → BitVec 16
  | none => 0
  | some (.setTimeout ms) => ms
  | some (.read n) => n
  | some .close => 0

/-- A stream response (30_encoding.md R91). Data(k, b[0..k-1]) is its bytes, and k is how many they are. -/
inductive Response where
  /-- RESP 0, the answer to SET_TIMEOUT. -/
  | ack
  /-- RESP 1, the answer to READ(n). -/
  | data (bytes : List Byte)
  /-- RESP 2, StreamFailure. -/
  | fail
  /-- RESP 3, reserved: the stream never sends it. -/
  | reserved
  deriving DecidableEq, Repr

/-- The 2-bit RESP code (30_encoding.md R91). -/
def respCode : Response → BitVec 2
  | .ack => 0
  | .data _ => 1
  | .fail => 2
  | .reserved => 3

/-- The 5-bit count k of a response (30_encoding.md R91, which gives it for Data). DESIGN CHOICE: beside Ack, Fail and
the reserved code the model makes it 0; R91 gives none there (log entry 18). -/
def respCount : Response → BitVec 5
  | .ack => 0
  | .data bytes => BitVec.ofNat 5 bytes.length
  | .fail => 0
  | .reserved => 0

/-- What the environment presents at once: the three host inputs (10_state.md R20) and the stream's response to
the outstanding command, if it has come. Several may be there together; 60_exceptions.md R238 orders them. -/
structure Input where
  /-- RESET, a level. -/
  reset : Bool
  /-- RAW_MODE, looked at only by reset. -/
  rawMode : Bool
  /-- CANCEL. -/
  cancel : Bool
  /-- The response to the outstanding command. -/
  resp : Option Response
  deriving DecidableEq, Repr

/-- A response and nothing else: `A`, `D<k>` and `X` of 30_encoding.md R89. -/
def Input.respond (r : Response) : Input := { reset := false, rawMode := false, cancel := false, resp := some r }

/-- A cancellation and nothing else: `C` of 30_encoding.md R89. -/
def Input.cancellation : Input := { reset := false, rawMode := false, cancel := true, resp := none }

end Sys2Proof.Machine
end

