-- ==== Sys2Proof/Machine/Operands.lean ====
section
/-!
DEFINITION. The bitfield extractor (40_bitfield_extract.md R100 to R106) and what the encoder needs of it the
other way round: a frame's BitField, DigitField, ModeKey and special bits, the digit check, the magnitude and the
DIGITS field of a record.
-/

namespace Sys2Proof.Machine

/-- The frame that a full read of 8 bytes delivers; no other byte count is a frame (20_memory.md R54). -/
def frameOfBytes : List Byte → Option Frame
  | [f0, f1, f2, f3, f4, f5, f6, f7] => some ⟨f0, f1, f2, f3, f4, f5, f6, f7⟩
  | _ => none

/-- The bytes of a frame in arrival order. -/
def frameBytes (f : Frame) : List Byte := [f.f0, f.f1, f.f2, f.f3, f.f4, f.f5, f.f6, f.f7]

/-- EXTRACT_BF (40_bitfield_extract.md R100): BF = (F[2], F[1], F[0]), F[0] least significant. -/
def extractBf (f : Frame) : BitField := BitVec.cast rfl (f.f2 ++ f.f1 ++ f.f0)

/-- EXTRACT_DIG (40_bitfield_extract.md R101): D_i = F[3+i], unchecked. -/
def extractDig (f : Frame) : RawDigits := ⟨f.f3, f.f4, f.f5, f.f6, f.f7⟩

/-- EXTRACT_KEY (40_bitfield_extract.md R104): KEY = BF[11:3]. -/
def extractKey (bf : BitField) : ModeKey := bf.extractLsb' 3 9

/-- EXTRACT_SIGN (40_bitfield_extract.md R105): SIGN = BF[21]. -/
def extractSign (bf : BitField) : Bool := bf.getLsbD 21

/-- EXTRACT_SPECIAL (40_bitfield_extract.md R106), with the sign bit and the unused bits of 30_encoding.md R73
beside them. -/
def extractSpecials (bf : BitField) : Specials where
  x10 := bf.getLsbD 0
  sel1 := bf.getLsbD 1
  sel2 := bf.getLsbD 2
  alt := bf.getLsbD 12
  ol := bf.getLsbD 13
  cap := bf.getLsbD 14
  sign := extractSign bf
  unusedLow := bf.extractLsb' 15 6
  unusedHigh := bf.extractLsb' 22 2

/-- The BitField with a given key and given bits outside it, laid out as 30_encoding.md R71 numbers them. -/
def composeBf (k : ModeKey) (b : Specials) : BitField :=
  BitVec.cast rfl
    (b.unusedHigh ++ BitVec.ofBool b.sign ++ b.unusedLow ++ BitVec.ofBool b.cap ++ BitVec.ofBool b.ol ++
      BitVec.ofBool b.alt ++ k ++ BitVec.ofBool b.sel2 ++ BitVec.ofBool b.sel1 ++ BitVec.ofBool b.x10)

/-- The frame with a given BitField and given digit bytes (30_encoding.md R70). -/
def composeFrame (bf : BitField) (r : RawDigits) : Frame where
  f0 := bf.extractLsb' 0 8
  f1 := bf.extractLsb' 8 8
  f2 := bf.extractLsb' 16 8
  f3 := r.b0
  f4 := r.b1
  f5 := r.b2
  f6 := r.b3
  f7 := r.b4

/-- The value of a digit byte, or none: 0x30 to 0x39 are the digits 0 to 9, every other byte is no digit
(30_encoding.md R76). -/
def digitValue (d : Byte) : Option (Fin 10) :=
  if h : 0x30 ≤ d.toNat ∧ d.toNat ≤ 0x39 then some ⟨d.toNat - 0x30, by omega⟩ else none

/-- The byte of a digit (30_encoding.md R76). -/
def digitByte (d : Fin 10) : Byte := BitVec.ofNat 8 (0x30 + d.val)

/-- CHECK_DIG (40_bitfield_extract.md R102): the five digits where every byte is one, none (DIGOK = 0)
otherwise. -/
def checkDig (r : RawDigits) : Option Digits :=
  match digitValue r.b0, digitValue r.b1, digitValue r.b2, digitValue r.b3, digitValue r.b4 with
  | some d0, some d1, some d2, some d3, some d4 => some ⟨d0, d1, d2, d3, d4⟩
  | _, _, _, _, _ => none

/-- The DigitField that five digits come in. -/
def digitBytes (d : Digits) : RawDigits :=
  ⟨digitByte d.d0, digitByte d.d1, digitByte d.d2, digitByte d.d3, digitByte d.d4⟩

/-- PARSE_MAG as a number (40_bitfield_extract.md R103): D_0 is the ten-thousands digit. -/
def magnitude (d : Digits) : Nat :=
  10000 * d.d0.val + 1000 * d.d1.val + 100 * d.d2.val + 10 * d.d3.val + d.d4.val

/-- PARSE_MAG as the 17-bit field of a record (30_encoding.md R75). -/
def parseMag (d : Digits) : Magnitude := BitVec.ofNat 17 (magnitude d)

/-- The DIGITS field of a record: DIGITS[8i+7:8i] = F[3+i] (30_encoding.md R83, R84). -/
def digitsField (r : RawDigits) : BitVec 40 := BitVec.cast rfl (r.b4 ++ r.b3 ++ r.b2 ++ r.b1 ++ r.b0)

end Sys2Proof.Machine
end

