-- ==== Sys2Proof/Machine/Records.lean ====
section
/-!
DEFINITION. The sink port's records (30_encoding.md R80 to R85): the four kinds as data, their 80-bit words, the
unit codes and the unit labels (R78, R79).
-/

namespace Sys2Proof.Machine

/-- One record the block emits. -/
inductive Record where
  /-- KIND 0 (30_encoding.md R81): UNIT, OVF, NEG, DP and MAG. -/
  | measurement (unit : UnitLabel) (ovf neg : Bool) (dp : BitVec 3) (mag : Magnitude)
  /-- KIND 1 (30_encoding.md R82): KEY and MAG. -/
  | unknownMode (key : ModeKey) (mag : Magnitude)
  /-- KIND 2 (30_encoding.md R83): KEY and the five digit bytes. -/
  | badDigit (key : ModeKey) (digits : BitVec 40)
  /-- KIND 3 (30_encoding.md R84): BITFIELD, KEY, SIGN and the five digit bytes. -/
  | raw (bitField : BitField) (key : ModeKey) (sign : Bool) (digits : BitVec 40)
  deriving DecidableEq, Repr

/-- The 5-bit UNIT code (30_encoding.md R78). -/
def unitCode : UnitLabel → BitVec 5
  | .vAc => 0
  | .percent => 1
  | .mvDc => 2
  | .nf => 3
  | .vDc => 4
  | .ohm => 5
  | .mvAcDc => 6
  | .uaAc => 7
  | .dbm => 8
  | .vf => 9
  | .mvAc => 10
  | .uaDc => 11
  | .aDc => 12
  | .hz => 13
  | .uaAcDc => 14
  | .megaOhm => 15
  | .kiloOhm => 16
  | .uf => 17
  | .aAc => 18
  | .mAAcDc => 19
  | .aAcDc => 20
  | .mADc => 21
  | .maAc => 22

/-- The unit a code stands for; 23 to 31 are reserved and stand for none (30_encoding.md R78). -/
def unitOfCode (c : BitVec 5) : Option UnitLabel :=
  [.vAc, .percent, .mvDc, .nf, .vDc, .ohm, .mvAcDc, .uaAc, .dbm, .vf, .mvAc, .uaDc, .aDc, .hz, .uaAcDc,
    .megaOhm, .kiloOhm, .uf, .aAc, .mAAcDc, .aAcDc, .mADc, .maAc][c.toNat]?

/-- The label a unit is reported under, character for character (30_encoding.md R78, R79). -/
def unitText : UnitLabel → String
  | .vAc => "V AC"
  | .percent => "%"
  | .mvDc => "mV DC"
  | .nf => "nF"
  | .vDc => "V DC"
  | .ohm => "Ohm"
  | .mvAcDc => "mV AC DC"
  | .uaAc => "uA AC"
  | .dbm => "dBm"
  | .vf => "VF"
  | .mvAc => "mV AC"
  | .uaDc => "uA DC"
  | .aDc => "A DC"
  | .hz => "Hz"
  | .uaAcDc => "uA AC DC"
  | .megaOhm => "M Ohm"
  | .kiloOhm => "k Ohm"
  | .uf => "uF"
  | .aAc => "A AC"
  | .mAAcDc => "mA AC DC"
  | .aAcDc => "A AC DC"
  | .mADc => "mA DC"
  | .maAc => "ma AC"

/-- The 80-bit word of a record (30_encoding.md R81 to R84): KIND in bits [2:0], the fields above it, and 0 in
every bit the layout marks "-". -/
def recordWord : Record → RecordWord
  | .measurement unit ovf neg dp mag =>
    BitVec.cast rfl
      (0#50 ++ mag ++ dp ++ BitVec.ofBool neg ++ BitVec.ofBool ovf ++ unitCode unit ++ 0#3)
  | .unknownMode key mag => BitVec.cast rfl (0#51 ++ mag ++ key ++ 1#3)
  | .badDigit key digits => BitVec.cast rfl (0#28 ++ digits ++ key ++ 2#3)
  | .raw bitField key sign digits =>
    BitVec.cast rfl (0#3 ++ digits ++ BitVec.ofBool sign ++ key ++ bitField ++ 3#3)

/-- The record a sink reads in an 80-bit word: none where the KIND is 4 to 7 or the UNIT 23 to 31, which no
record of the block has (30_encoding.md R85). The bits the layout marks "-" are not read. -/
def recordOfWord (w : RecordWord) : Option Record :=
  match (w.extractLsb' 0 3).toNat with
  | 0 =>
    (unitOfCode (w.extractLsb' 3 5)).map fun u =>
      .measurement u (w.getLsbD 8) (w.getLsbD 9) (w.extractLsb' 10 3) (w.extractLsb' 13 17)
  | 1 => some (.unknownMode (w.extractLsb' 3 9) (w.extractLsb' 12 17))
  | 2 => some (.badDigit (w.extractLsb' 3 9) (w.extractLsb' 12 40))
  | 3 => some (.raw (w.extractLsb' 3 24) (w.extractLsb' 27 9) (w.getLsbD 36) (w.extractLsb' 37 40))
  | _ => none

/-- The sink's two logical channels (20_memory.md R56). -/
inductive Channel where
  | measurement
  | error
  deriving DecidableEq, Repr

/-- MEASUREMENT and RAW records go on the measurement channel, UNKNOWN_MODE and BAD_DIGIT on the error channel
(20_memory.md R56). -/
def recordChannel : Record → Channel
  | .measurement _ _ _ _ _ => .measurement
  | .unknownMode _ _ => .error
  | .badDigit _ _ => .error
  | .raw _ _ _ _ => .measurement

end Sys2Proof.Machine
end

