-- ==== Sys2Proof/Machine/State.lean ====
section
/-!
DEFINITION. The state of the block (10_state.md R21 to R28, R34) as plain data, with the model's own fields for
the ports beside it; the reasons a step can stop; and the state right after reset (10_state.md R37,
70_reset_and_hazards.md R260).
-/

namespace Sys2Proof.Machine

/-- FSM_STATE (10_state.md R22), by the names of its encodings 0 to 6. Encoding 7 is reserved and never entered,
so no constructor stands for it. -/
inductive FsmState where
  /-- 0: SET_TIMEOUT(T_SHORT) is outstanding. -/
  | setShort
  /-- 1: READ(16), the junk read, is outstanding. -/
  | junk
  /-- 2: READ(8) is outstanding, under the short timeout. -/
  | probe
  /-- 3: SET_TIMEOUT(T_LONG) is outstanding. -/
  | setLong
  /-- 4: READ(8) is outstanding, under the long timeout: the steady state. -/
  | run
  /-- 5: terminal, after cancellation. -/
  | closed
  /-- 6: terminal, after StreamFailure. -/
  | failed
  deriving DecidableEq, Repr

/-- LAST_EXC (10_state.md R27), by the names of its codes 0 to 5 (60_exceptions.md R230). Codes 6 and 7 are
reserved and never written. -/
inductive ExcCode where
  | none
  | synchronizationLoss
  | unknownMode
  | badDigit
  | streamFailure
  | userCancellation
  deriving DecidableEq, Repr

/-- FAIL_CMD (10_state.md R28), by the names of its values 0 to 2. Value 3 is never written. -/
inductive FailCmd where
  | none
  | setTimeout
  | read
  deriving DecidableEq, Repr

/-- The state of the machine. -/
structure State where
  /-- FSM_STATE (10_state.md R22). -/
  fsm : FsmState
  /-- CFG_RAW (10_state.md R23): true selects raw passthrough. -/
  cfgRaw : Bool
  /-- TIMEOUT_CUR, in milliseconds (10_state.md R24). -/
  timeoutCur : BitVec 16
  /-- SYNC_RETRY, saturating (10_state.md R25). -/
  syncRetry : BitVec 32
  /-- RESYNC_COUNT, saturating (10_state.md R26). -/
  resyncCount : BitVec 32
  /-- LAST_EXC (10_state.md R27). -/
  lastExc : ExcCode
  /-- FAIL_CMD (10_state.md R28). -/
  failCmd : FailCmd
  /-- The ModeTable ROM, which no step writes (10_state.md R34). -/
  rom : ModeTable
  /-- RESET as last sampled (10_state.md R20); the model's own, log entry 3. -/
  inReset : Bool
  /-- T_SHORT and T_LONG (00_scope.md R6), which no step writes; the model's own, log entry 6. -/
  params : Params
  /-- What the environment has yet to present, next first; the model's own, log entry 1. -/
  inputs : List Input
  /-- What the environment presents again and again once `inputs` is used up, or nothing: an environment that
  never ends, which an infinite run needs (43_resync_fsm.md R194, 70_reset_and_hazards.md R272). No step writes it;
  the model's own, log entry 1. -/
  repeating : List Input
  /-- The commands issued so far on the stream port, oldest first; the model's own, log entry 2. -/
  commands : List Command
  /-- The records emitted so far at the sink port, oldest first; the model's own, log entry 2. -/
  records : List Record
  deriving DecidableEq, Repr

/-- The faults that stop the machine: none. The spec's exception events are all taken and lead to a next state
(60_exceptions.md R230), so no constructor is needed and none is there. -/
inductive Fault where
  deriving DecidableEq, Repr

/-- What has no step. -/
inductive Refusal where
  /-- Raised by the dispatch for an instruction without a meaning. Safe: the machine stops. -/
  | notModelled (mnemonic : String)
  /-- Raised by the resync state machine for a response of the wrong kind: Data to SET_TIMEOUT, Ack to READ.
  The spec gives it no step (20_memory.md R51, 43_resync_fsm.md R182). Safe: the machine stops. -/
  | responseOfWrongKind
  /-- Raised by the resync state machine for Data of more bytes than were asked for. The spec gives it no step
  (20_memory.md R51, 43_resync_fsm.md R182). Safe: the machine stops. -/
  | responseTooLong
  /-- Raised by the resync state machine for RESP code 3, which the stream never sends (30_encoding.md R91).
  Safe: the machine stops. -/
  | responseReserved
  deriving DecidableEq, Repr

/-- The state right after RESET is deasserted with the given RAW_MODE (10_state.md R37, 70_reset_and_hazards.md
R260): every register at its reset value, and SET_TIMEOUT(T_SHORT) issued. No input is waiting and no record has
been emitted. -/
def State.resetWith (rawMode : Bool) (rom : ModeTable) (params : Params) : State where
  fsm := .setShort
  cfgRaw := rawMode
  timeoutCur := 0
  syncRetry := 0
  resyncCount := 0
  lastExc := .none
  failCmd := .none
  rom := rom
  inReset := false
  params := params
  inputs := []
  repeating := []
  commands := [.setTimeout params.tShort]
  records := []

/-- The machine right after reset with RAW_MODE = 0 (DESIGN CHOICE, log entry 4), its own ROM (log entry 5) and
the default timeouts (log entry 6). -/
def State.reset : State := State.resetWith false modeTable Config.defaultParams

end Sys2Proof.Machine
end

