-- ==== Sys2Proof/Machine/Ops.lean ====
section
/-!
DEFINITION. The operations the transitions and the meanings share: emitting a record, issuing a command, entering
a state (43_resync_fsm.md R181), taking an exception event (60_exceptions.md R230), reset (70_reset_and_hazards.md
R260), and the status port (10_state.md R29). The block has no memory, so there is no memory operation
(20_memory.md R57).
-/

namespace Sys2Proof.Machine

/-- sat_inc_32 (00_scope.md R10). -/
def satInc32 (x : BitVec 32) : BitVec 32 := BitVec.ofNat 32 (min (x.toNat + 1) (2 ^ 32 - 1))

/-- The 3-bit code of an FSM_STATE (10_state.md R22). -/
def fsmCode : FsmState → BitVec 3
  | .setShort => 0
  | .junk => 1
  | .probe => 2
  | .setLong => 3
  | .run => 4
  | .closed => 5
  | .failed => 6

/-- The 3-bit code of a LAST_EXC (60_exceptions.md R230). -/
def excCode : ExcCode → BitVec 3
  | .none => 0
  | .synchronizationLoss => 1
  | .unknownMode => 2
  | .badDigit => 3
  | .streamFailure => 4
  | .userCancellation => 5

/-- The 2-bit code of a FAIL_CMD (10_state.md R28). -/
def failCode : FailCmd → BitVec 2
  | .none => 0
  | .setTimeout => 1
  | .read => 2

/-- TERMINAL: FSM_STATE is 5 or 6 (10_state.md R29, 43_resync_fsm.md R192). -/
def FsmState.terminal : FsmState → Bool
  | .setShort => false
  | .junk => false
  | .probe => false
  | .setLong => false
  | .run => false
  | .closed => true
  | .failed => true

/-- The command a state has outstanding, issued on entering it (43_resync_fsm.md R181). -/
def commandOf (p : Params) : FsmState → Option Command
  | .setShort => some (.setTimeout p.tShort)
  | .junk => some (.read (BitVec.ofNat 16 Config.junkLen))
  | .probe => some (.read (BitVec.ofNat 16 Config.frameLen))
  | .setLong => some (.setTimeout p.tLong)
  | .run => some (.read (BitVec.ofNat 16 Config.frameLen))
  | .closed => none
  | .failed => none

/-- FAIL_CMD for a failure of a state's outstanding command (43_resync_fsm.md R190). A terminal state has none
outstanding. -/
def failCmdOf : FsmState → FailCmd
  | .setShort => .setTimeout
  | .junk => .read
  | .probe => .read
  | .setLong => .setTimeout
  | .run => .read
  | .closed => .none
  | .failed => .none

/-- The command outstanding now: none while RESET is asserted (30_encoding.md R90). -/
def State.cmd (s : State) : Option Command := if s.inReset then none else commandOf s.params s.fsm

/-- What the environment presents from here on, next first: the waiting inputs, or, once they are used up, another
round of the repeating ones. Empty where nothing will come (log entry 1). -/
def State.supply (s : State) : List Input :=
  match s.inputs with
  | [] => s.repeating
  | i :: rest => i :: rest

/-- Emit a record: the sink accepts it always and in order (20_memory.md R55). -/
def State.emit (r : Record) (s : State) : State := { s with records := s.records ++ [r] }

/-- Issue a command on the stream port (30_encoding.md R90). -/
def State.issue (c : Command) (s : State) : State := { s with commands := s.commands ++ [c] }

/-- Enter a state: FSM_STATE takes it and its command is issued (43_resync_fsm.md R181). Entering the state the
block is already in issues the command again. -/
def State.enter (t : FsmState) (s : State) : State :=
  { s with fsm := t, commands := s.commands ++ (commandOf s.params t).toList }

/-- Enter ST_SET_SHORT, the start of synchronisation, which clears SYNC_RETRY (10_state.md R25). -/
def State.enterSync (s : State) : State := ({ s with syncRetry := 0 } : State).enter .setShort

/-- An exception event with what it reports (60_exceptions.md R230). -/
inductive ExcEvent where
  /-- A read of k < 8 bytes in ST_RUN; k is not recorded (60_exceptions.md R231). -/
  | synchronizationLoss (k : Nat)
  /-- A key outside the ROM (60_exceptions.md R232). -/
  | unknownMode (key : ModeKey) (mag : Magnitude)
  /-- A byte that is no digit (60_exceptions.md R233). -/
  | badDigit (key : ModeKey) (digits : BitVec 40)
  /-- The stream answered Fail (60_exceptions.md R234). -/
  | streamFailure
  /-- CANCEL (60_exceptions.md R235). -/
  | userCancellation
  deriving DecidableEq, Repr

/-- The LAST_EXC code of an event (60_exceptions.md R230). -/
def ExcEvent.code : ExcEvent → ExcCode
  | .synchronizationLoss _ => .synchronizationLoss
  | .unknownMode _ _ => .unknownMode
  | .badDigit _ _ => .badDigit
  | .streamFailure => .streamFailure
  | .userCancellation => .userCancellation

/-- What an event records and where the block goes (60_exceptions.md R230, columns "records" and "next state"):
no pc, mode or stack is saved (R240). -/
def ExcEvent.effect (e : ExcEvent) (s : State) : State :=
  match e with
  | .synchronizationLoss _ => ({ s with resyncCount := satInc32 s.resyncCount } : State).enterSync
  | .unknownMode key mag => (s.emit (.unknownMode key mag)).enter .run
  | .badDigit key digits => (s.emit (.badDigit key digits)).enter .run
  | .streamFailure => ({ s with failCmd := failCmdOf s.fsm } : State).enter .failed
  | .userCancellation => (s.issue .close).enter .closed

/-- Take an exception event: LAST_EXC takes its code (60_exceptions.md R248), and the event has its effect. There
is no return operation: after a SynchronizationLoss the resynchronisation ends in ST_RUN by `tLongAck`, after
UnknownMode and BadDigit the block is still there, and the other two do not return (60_exceptions.md R241). -/
def State.raise (e : ExcEvent) (s : State) : State := e.effect { s with lastExc := e.code }

/-- The registers at their reset values, CFG_RAW taking RAW_MODE; the ROM is unaffected (10_state.md R37). -/
def State.resetRegisters (rawMode : Bool) (s : State) : State :=
  { s with
    fsm := .setShort
    cfgRaw := rawMode
    timeoutCur := 0
    syncRetry := 0
    resyncCount := 0
    lastExc := .none
    failCmd := .none }

/-- RESET asserted: the block holds its reset state and issues nothing (10_state.md R20, 70_reset_and_hazards.md
R260). -/
def State.holdReset (rawMode : Bool) (s : State) : State := { s.resetRegisters rawMode with inReset := true }

/-- RESET deasserted: every register is loaded with its reset value and SET_TIMEOUT(T_SHORT) is issued
(70_reset_and_hazards.md R260). -/
def State.leaveReset (rawMode : Bool) (s : State) : State :=
  ({ s.resetRegisters rawMode with inReset := false } : State).enterSync

/-- A read of a status register by the host (10_state.md R29): STATUS, TIMEOUT, SYNC_RETRY and RESYNC_COUNT;
unused bits and register numbers above 3 read 0. -/
def State.statusRead (s : State) (reg : Nat) : BitVec 32 :=
  match reg with
  | 0 =>
    BitVec.cast rfl
      (0#22 ++ failCode s.failCmd ++ excCode s.lastExc ++ BitVec.ofBool s.fsm.terminal ++
        BitVec.ofBool s.cfgRaw ++ fsmCode s.fsm)
  | 1 => BitVec.cast rfl (0#16 ++ s.timeoutCur)
  | 2 => s.syncRetry
  | 3 => s.resyncCount
  | _ => 0

/-- A write to a status register by the host is ignored (10_state.md R29). -/
def State.statusWrite (s : State) (_reg : Nat) (_value : BitVec 32) : State := s

end Sys2Proof.Machine
end

