-- ==== Sys2Proof/Machine/Diagnostics.lean ====
section
/-!
DEFINITION. The meanings of the two recoverable decode errors: UNKNOWN (41_mode_lookup.md R121) and BADDIGIT
(40_bitfield_extract.md R102). Each takes its exception event; the block stays in ST_RUN.
-/

namespace Sys2Proof.Machine

/-- UNKNOWN: raise UnknownMode(KEY, MAG); the special bits are ignored (41_mode_lookup.md R121, 60_exceptions.md
R232). -/
def execUnknown (k : ModeKey) (_b : Specials) (d : Digits) (s : State) : Host.Outcome State Fault Refusal :=
  .next (s.raise (.unknownMode k (parseMag d)))

/-- BADDIGIT: raise BadDigit(KEY, DIG); no magnitude, lookup or scaling (40_bitfield_extract.md R102,
60_exceptions.md R233). -/
def execBadDigit (k : ModeKey) (_b : Specials) (r : RawDigits) (s : State) : Host.Outcome State Fault Refusal :=
  .next (s.raise (.badDigit k (digitsField r)))

end Sys2Proof.Machine
end

