-- ==== Sys2Proof/Machine/Flags.lean ====
section
/-!
DEFINITION. The scaler's working values and flags (10_state.md R30 to R33): UNIT, EXP and FNN, which the chain
carries, and NEG and OVF, which are computed at its end.
-/

namespace Sys2Proof.Machine

/-- The working values of the scaler: the current unit, the decimal exponent, and the force-non-negative flag
(10_state.md R30, R31). -/
structure Work where
  unit : UnitLabel
  exp : Int
  fnn : Bool
  deriving DecidableEq, Repr

/-- FNN forced (10_state.md R31). -/
def Work.forceNonNegative (w : Work) : Work := { w with fnn := true }

/-- NEG = BF[21] and not FNN (10_state.md R32, 42_scaler.md R163). -/
def negFlag (b : Specials) (w : Work) : Bool := b.sign && !w.fnn

/-- OVF = BF[13] (10_state.md R33, 42_scaler.md R165). -/
def ovfFlag (b : Specials) : Bool := b.ol

/-- The decimal places of the record, DP = -EXP (42_scaler.md R164). -/
def decimalPlaces (w : Work) : BitVec 3 := BitVec.ofNat 3 (-w.exp).toNat

end Sys2Proof.Machine
end

