-- ==== Sys2Proof/Machine/Scaler.lean ====
section
/-!
DEFINITION. The magnitude scaler (42_scaler.md): INIT, the ten rewrite rules in their order, MUL10, and the
MEASUREMENT record. Each rule tests the unit the rules before it left.
-/

namespace Sys2Proof.Machine

/-- INIT (42_scaler.md R150): UNIT is BASE_UNIT_m, EXP is -DIVEXP_m, FNN is 0. -/
def scaleInit (e : ModeEntry) : Work := { unit := e.baseUnit, exp := -(e.divExp.toNat : Int), fnn := false }

/-- A rewrite to a new unit with EXP moved by `de`. -/
def Work.rewrite (u : UnitLabel) (de : Int) (w : Work) : Work := { w with unit := u, exp := w.exp + de }

/-- RW_OHM (42_scaler.md R152): bit 2 wins over bit 1. -/
def rwOhm (b : Specials) (w : Work) : Work :=
  if w.unit = .ohm then
    if b.sel2 then w.rewrite .megaOhm (-2) else if b.sel1 then w.rewrite .kiloOhm (-1) else w
  else w

/-- RW_PCT (42_scaler.md R153). -/
def rwPct (b : Specials) (w : Work) : Work :=
  if w.unit = .percent ∧ b.cap = true then w.rewrite .nf (-3) else w

/-- RW_NF (42_scaler.md R154). -/
def rwNf (b : Specials) (w : Work) : Work :=
  if w.unit = .nf ∧ b.sel2 = true then w.rewrite .uf 1 else w

/-- RW_VAC (42_scaler.md R155). -/
def rwVac (b : Specials) (w : Work) : Work :=
  if w.unit = .vAc then
    if b.sel1 then (w.rewrite .vAc 2).forceNonNegative else w.forceNonNegative
  else w

/-- RW_MVDC_ALT (42_scaler.md R156). -/
def rwMvdcAlt (b : Specials) (w : Work) : Work :=
  if w.unit = .mvDc ∧ b.alt = true then (w.rewrite .aAc (-1)).forceNonNegative else w

/-- RW_VDC_ALT (42_scaler.md R157). -/
def rwVdcAlt (b : Specials) (w : Work) : Work :=
  if w.unit = .vDc ∧ b.alt = true then w.rewrite .mAAcDc 1 else w

/-- RW_MVAC_ALT (42_scaler.md R158): the whole label matches, so `mV AC DC` does not. -/
def rwMvacAlt (b : Specials) (w : Work) : Work :=
  if w.unit = .mvAc ∧ b.alt = true then w.rewrite .aAcDc (-1) else w

/-- RW_VAC_ALT (42_scaler.md R159): the unit only; EXP and FNN stay. -/
def rwVacAlt (b : Specials) (w : Work) : Work :=
  if w.unit = .vAc ∧ b.alt = true then w.rewrite .mADc 0 else w

/-- RW_DBM_SIGN (42_scaler.md R160). -/
def rwDbmSign (b : Specials) (w : Work) : Work :=
  if w.unit = .dbm ∧ b.sign = true then (w.rewrite .maAc (-1)).forceNonNegative else w

/-- RW_UAAC (42_scaler.md R161): the whole label matches, so `uA AC DC` does not. -/
def rwUaac (_b : Specials) (w : Work) : Work :=
  if w.unit = .uaAc then w.forceNonNegative else w

/-- The ten rewrite rules in their order (42_scaler.md R151). -/
def rewriteRules : List (Specials → Work → Work) :=
  [rwOhm, rwPct, rwNf, rwVac, rwMvdcAlt, rwVdcAlt, rwMvacAlt, rwVacAlt, rwDbmSign, rwUaac]

/-- The rewrite chain: each rule once, on what the rules before it left (42_scaler.md R151). -/
def rewriteChain (b : Specials) (w : Work) : Work := rewriteRules.foldl (fun w rule => rule b w) w

/-- MUL10 (42_scaler.md R162). -/
def mul10 (b : Specials) (w : Work) : Work := if b.x10 then { w with exp := w.exp + 1 } else w

/-- The scaler on one entry of the ROM: INIT, the chain, MUL10 (40_bitfield_extract.md R110). -/
def scale (e : ModeEntry) (b : Specials) : Work := mul10 b (rewriteChain b (scaleInit e))

/-- EMIT_MEAS (42_scaler.md R166): the record's NEG, DP and MAG are 0 where OVF = 1. -/
def measurementRecord (b : Specials) (d : Digits) (w : Work) : Record :=
  if ovfFlag b then .measurement w.unit true false 0 0
  else .measurement w.unit false (negFlag b w) (decimalPlaces w) (parseMag d)

end Sys2Proof.Machine
end

