-- ==== Sys2Proof/Machine/Modes.lean ====
section
/-!
DEFINITION. The meanings of the fifteen modes' rows (41_mode_lookup.md R122 to R136). The rows of one mode share
the scaler (40_bitfield_extract.md R110); which rewrites fire is the scaler's own reading of the special bits.
-/

namespace Sys2Proof.Machine

/-- A frame of a known mode (43_resync_fsm.md R189): the scaler's MEASUREMENT record goes to the sink, and the
block enters ST_RUN again, which issues the next READ(8). LAST_EXC stays (42_scaler.md R166). -/
def State.measure (m : Mode) (b : Specials) (d : Digits) (s : State) : State :=
  (s.emit (measurementRecord b d (scale (s.rom.entry m) b))).enter .run

/-- VAC: `V AC` (41_mode_lookup.md R122; 42_scaler.md R155). -/
def execVac (b : Specials) (d : Digits) (s : State) : Host.Outcome State Fault Refusal :=
  .next (s.measure .vac b d)

/-- VAC.MADC: `mA DC`, not rescaled (41_mode_lookup.md R122; 42_scaler.md R155, R159). -/
def execVacMadc (b : Specials) (d : Digits) (s : State) : Host.Outcome State Fault Refusal :=
  .next (s.measure .vac b d)

/-- PCT: `%` (41_mode_lookup.md R123). -/
def execPct (b : Specials) (d : Digits) (s : State) : Host.Outcome State Fault Refusal :=
  .next (s.measure .pct b d)

/-- PCT.NF: `nF`, value /1000 (41_mode_lookup.md R123; 42_scaler.md R153). -/
def execPctNf (b : Specials) (d : Digits) (s : State) : Host.Outcome State Fault Refusal :=
  .next (s.measure .pct b d)

/-- PCT.UF: `uF`, value /1000 then x10 (41_mode_lookup.md R123; 42_scaler.md R153, R154). -/
def execPctUf (b : Specials) (d : Digits) (s : State) : Host.Outcome State Fault Refusal :=
  .next (s.measure .pct b d)

/-- MVDC: `mV DC` (41_mode_lookup.md R124). -/
def execMvdc (b : Specials) (d : Digits) (s : State) : Host.Outcome State Fault Refusal :=
  .next (s.measure .mvdc b d)

/-- MVDC.AAC: `A AC`, value /10, non-negative (41_mode_lookup.md R124; 42_scaler.md R156). -/
def execMvdcAac (b : Specials) (d : Digits) (s : State) : Host.Outcome State Fault Refusal :=
  .next (s.measure .mvdc b d)

/-- NF: `nF` (41_mode_lookup.md R125). -/
def execNf (b : Specials) (d : Digits) (s : State) : Host.Outcome State Fault Refusal :=
  .next (s.measure .nf b d)

/-- NF.UF: `uF`, value x10 (41_mode_lookup.md R125; 42_scaler.md R154). -/
def execNfUf (b : Specials) (d : Digits) (s : State) : Host.Outcome State Fault Refusal :=
  .next (s.measure .nf b d)

/-- VDC: `V DC` (41_mode_lookup.md R126). -/
def execVdc (b : Specials) (d : Digits) (s : State) : Host.Outcome State Fault Refusal :=
  .next (s.measure .vdc b d)

/-- VDC.MAACDC: `mA AC DC`, value x10 (41_mode_lookup.md R126; 42_scaler.md R157). -/
def execVdcMaacdc (b : Specials) (d : Digits) (s : State) : Host.Outcome State Fault Refusal :=
  .next (s.measure .vdc b d)

/-- OHM: `Ohm` (41_mode_lookup.md R127). -/
def execOhm (b : Specials) (d : Digits) (s : State) : Host.Outcome State Fault Refusal :=
  .next (s.measure .ohm b d)

/-- OHM.K: `k Ohm`, value /10 (41_mode_lookup.md R127; 42_scaler.md R152). -/
def execOhmK (b : Specials) (d : Digits) (s : State) : Host.Outcome State Fault Refusal :=
  .next (s.measure .ohm b d)

/-- OHM.M: `M Ohm`, value /100 (41_mode_lookup.md R127; 42_scaler.md R152). -/
def execOhmM (b : Specials) (d : Digits) (s : State) : Host.Outcome State Fault Refusal :=
  .next (s.measure .ohm b d)

/-- MVACDC: `mV AC DC` (41_mode_lookup.md R128). -/
def execMvacdc (b : Specials) (d : Digits) (s : State) : Host.Outcome State Fault Refusal :=
  .next (s.measure .mvacdc b d)

/-- UAAC: `uA AC`, non-negative (41_mode_lookup.md R129; 42_scaler.md R161). -/
def execUaac (b : Specials) (d : Digits) (s : State) : Host.Outcome State Fault Refusal :=
  .next (s.measure .uaac b d)

/-- DBM: `dBm` (41_mode_lookup.md R130). -/
def execDbm (b : Specials) (d : Digits) (s : State) : Host.Outcome State Fault Refusal :=
  .next (s.measure .dbm b d)

/-- DBM.MAAC: `ma AC`, value /10, non-negative (41_mode_lookup.md R130; 42_scaler.md R160). -/
def execDbmMaac (b : Specials) (d : Digits) (s : State) : Host.Outcome State Fault Refusal :=
  .next (s.measure .dbm b d)

/-- VF: `VF` (41_mode_lookup.md R131). -/
def execVf (b : Specials) (d : Digits) (s : State) : Host.Outcome State Fault Refusal :=
  .next (s.measure .vf b d)

/-- MVAC: `mV AC` (41_mode_lookup.md R132). -/
def execMvac (b : Specials) (d : Digits) (s : State) : Host.Outcome State Fault Refusal :=
  .next (s.measure .mvac b d)

/-- MVAC.AACDC: `A AC DC`, value /10 (41_mode_lookup.md R132; 42_scaler.md R158). -/
def execMvacAacdc (b : Specials) (d : Digits) (s : State) : Host.Outcome State Fault Refusal :=
  .next (s.measure .mvac b d)

/-- UADC: `uA DC` (41_mode_lookup.md R133). -/
def execUadc (b : Specials) (d : Digits) (s : State) : Host.Outcome State Fault Refusal :=
  .next (s.measure .uadc b d)

/-- ADC: `A DC` (41_mode_lookup.md R134). -/
def execAdc (b : Specials) (d : Digits) (s : State) : Host.Outcome State Fault Refusal :=
  .next (s.measure .adc b d)

/-- HZ: `Hz` (41_mode_lookup.md R135). -/
def execHz (b : Specials) (d : Digits) (s : State) : Host.Outcome State Fault Refusal :=
  .next (s.measure .hz b d)

/-- UAACDC: `uA AC DC` (41_mode_lookup.md R136). -/
def execUaacdc (b : Specials) (d : Digits) (s : State) : Host.Outcome State Fault Refusal :=
  .next (s.measure .uaacdc b d)

end Sys2Proof.Machine
end

