-- ==== Sys2Proof/Machine/Raw.lean ====
section
/-!
DEFINITION. The meaning of RAW, the raw passthrough (44_raw_passthrough.md R220, R221).
-/

namespace Sys2Proof.Machine

/-- RAW: the literal BitField, its key and sign bits, and the five bytes unchecked; no event is raised
(44_raw_passthrough.md R220). -/
def rawRecord (bf : BitField) (r : RawDigits) : Record :=
  .raw bf (extractKey bf) (extractSign bf) (digitsField r)

/-- RAW: emit the raw record and enter ST_RUN again (44_raw_passthrough.md R220, 43_resync_fsm.md R189). -/
def execRaw (bf : BitField) (r : RawDigits) (s : State) : Host.Outcome State Fault Refusal :=
  .next ((s.emit (rawRecord bf r)).enter .run)

end Sys2Proof.Machine
end

