-- ==== Sys2Proof/Machine/Dispatch.lean ====
section
/-!
DEFINITION. The dispatch: one arm for each constructor of Instr, each one call of its own meaning.
-/

namespace Sys2Proof.Machine

def exec (i : Instr) (s : State) : Host.Outcome State Fault Refusal :=
  match i with
  | .vac b d => Sys2Proof.Machine.execVac b d s
  | .vacMadc b d => Sys2Proof.Machine.execVacMadc b d s
  | .pct b d => Sys2Proof.Machine.execPct b d s
  | .pctNf b d => Sys2Proof.Machine.execPctNf b d s
  | .pctUf b d => Sys2Proof.Machine.execPctUf b d s
  | .mvdc b d => Sys2Proof.Machine.execMvdc b d s
  | .mvdcAac b d => Sys2Proof.Machine.execMvdcAac b d s
  | .nf b d => Sys2Proof.Machine.execNf b d s
  | .nfUf b d => Sys2Proof.Machine.execNfUf b d s
  | .vdc b d => Sys2Proof.Machine.execVdc b d s
  | .vdcMaacdc b d => Sys2Proof.Machine.execVdcMaacdc b d s
  | .ohm b d => Sys2Proof.Machine.execOhm b d s
  | .ohmK b d => Sys2Proof.Machine.execOhmK b d s
  | .ohmM b d => Sys2Proof.Machine.execOhmM b d s
  | .mvacdc b d => Sys2Proof.Machine.execMvacdc b d s
  | .uaac b d => Sys2Proof.Machine.execUaac b d s
  | .dbm b d => Sys2Proof.Machine.execDbm b d s
  | .dbmMaac b d => Sys2Proof.Machine.execDbmMaac b d s
  | .vf b d => Sys2Proof.Machine.execVf b d s
  | .mvac b d => Sys2Proof.Machine.execMvac b d s
  | .mvacAacdc b d => Sys2Proof.Machine.execMvacAacdc b d s
  | .uadc b d => Sys2Proof.Machine.execUadc b d s
  | .adc b d => Sys2Proof.Machine.execAdc b d s
  | .hz b d => Sys2Proof.Machine.execHz b d s
  | .uaacdc b d => Sys2Proof.Machine.execUaacdc b d s
  | .unknown k b d => Sys2Proof.Machine.execUnknown k b d s
  | .badDigit k b r => Sys2Proof.Machine.execBadDigit k b r s
  | .raw bf r => Sys2Proof.Machine.execRaw bf r s

end Sys2Proof.Machine
end

