-- ==== Sys2Proof/WellFormed.lean ====
section
/-!
DEFINITION. When a ModeTable and an instruction are well formed: the ROM holds the contents of 30_encoding.md
R77 under pairwise distinct keys (00_scope.md R7), and an instruction's bits are those its row of
spec/opcode_table.json fixes.
-/

namespace Sys2Proof

/-- The ROM's keys are pairwise distinct (00_scope.md R7). -/
def Machine.ModeTable.keysDistinct (t : Machine.ModeTable) : Bool :=
  decide (Mode.all.map fun m => (t.entry m).key).Nodup

/-- The ROM's units and divisors are those of 30_encoding.md R77. -/
def Machine.ModeTable.contentsOk (t : Machine.ModeTable) : Bool :=
  Mode.all.all fun m =>
    decide ((t.entry m).baseUnit = Machine.baseUnitOf m) && decide ((t.entry m).divExp = Machine.divExpOf m)

/-- A ModeTable the spec admits. -/
def Machine.ModeTable.wf (t : Machine.ModeTable) : Bool := t.keysDistinct && t.contentsOk

/-- The bits that select an instruction's row are as spec/opcode_table.json fixes them: the subform bits of a
mode, a key outside the ROM for UNKNOWN, some byte that is no digit for BADDIGIT; RAW fixes nothing. -/
def Instr.wf (t : Machine.ModeTable) : Instr → Bool
  | .vac b _ => !b.alt
  | .vacMadc b _ => b.alt
  | .pct b _ => !b.cap
  | .pctNf b _ => b.cap && !b.sel2
  | .pctUf b _ => b.cap && b.sel2
  | .mvdc b _ => !b.alt
  | .mvdcAac b _ => b.alt
  | .nf b _ => !b.sel2
  | .nfUf b _ => b.sel2
  | .vdc b _ => !b.alt
  | .vdcMaacdc b _ => b.alt
  | .ohm b _ => !b.sel1 && !b.sel2
  | .ohmK b _ => b.sel1 && !b.sel2
  | .ohmM b _ => b.sel2
  | .mvacdc _ _ => true
  | .uaac _ _ => true
  | .dbm b _ => !b.sign
  | .dbmMaac b _ => b.sign
  | .vf _ _ => true
  | .mvac b _ => !b.alt
  | .mvacAacdc b _ => b.alt
  | .uadc _ _ => true
  | .adc _ _ => true
  | .hz _ _ => true
  | .uaacdc _ _ => true
  | .unknown k _ _ => (t.lookup k).isNone
  | .badDigit _ _ r => (Machine.checkDig r).isNone
  | .raw _ _ => true

end Sys2Proof
end

