-- ==== Sys2Proof/Decode.lean ====
section
/-!
DEFINITION. Decoding a full frame into its row of spec/opcode_table.json (40_bitfield_extract.md R110,
30_encoding.md R87, R92), total on any bytes; and the encoder, written from the same tables (30_encoding.md R70,
R71, R89).
-/

namespace Sys2Proof

/-- Why bytes are no frame. -/
inductive DecodeError where
  /-- The bytes are not exactly 8; `len` is how many they are (20_memory.md R54). -/
  | notAFrame (len : Nat)
  deriving DecidableEq, Repr

/-- The row of a known mode: the subform the special bits select (30_encoding.md R87). -/
def selectRow (m : Mode) (b : Specials) (d : Digits) : Instr :=
  match m with
  | .vac => if b.alt then .vacMadc b d else .vac b d
  | .pct => if b.cap then (if b.sel2 then .pctUf b d else .pctNf b d) else .pct b d
  | .mvdc => if b.alt then .mvdcAac b d else .mvdc b d
  | .nf => if b.sel2 then .nfUf b d else .nf b d
  | .vdc => if b.alt then .vdcMaacdc b d else .vdc b d
  | .ohm => if b.sel2 then .ohmM b d else if b.sel1 then .ohmK b d else .ohm b d
  | .mvacdc => .mvacdc b d
  | .uaac => .uaac b d
  | .dbm => if b.sign then .dbmMaac b d else .dbm b d
  | .vf => .vf b d
  | .mvac => if b.alt then .mvacAacdc b d else .mvac b d
  | .uadc => .uadc b d
  | .adc => .adc b d
  | .hz => .hz b d
  | .uaacdc => .uaacdc b d

/-- Decode one frame (40_bitfield_extract.md R110). With CFG_RAW = 1 every frame is RAW (30_encoding.md R92);
otherwise the digit check comes first, then the lookup. -/
def decodeFrame (t : Machine.ModeTable) (cfgRaw : Bool) (f : Frame) : Instr :=
  let bf := Machine.extractBf f
  let r := Machine.extractDig f
  if cfgRaw then .raw bf r
  else
    match Machine.checkDig r with
    | none => .badDigit (Machine.extractKey bf) (Machine.extractSpecials bf) r
    | some d =>
      match t.lookup (Machine.extractKey bf) with
      | none => .unknown (Machine.extractKey bf) (Machine.extractSpecials bf) d
      | some m => selectRow m (Machine.extractSpecials bf) d

/-- Decode the bytes of one read: total, and anything but 8 bytes is rejected by name. -/
def decode (t : Machine.ModeTable) (cfgRaw : Bool) (bytes : List Byte) : Except DecodeError Instr :=
  match Machine.frameOfBytes bytes with
  | some f => .ok (decodeFrame t cfgRaw f)
  | none => .error (.notAFrame bytes.length)

/-- The mode whose key stands in an instruction's frame, for a mode's row. -/
def Instr.mode : Instr → Option Mode
  | .vac _ _ => some .vac
  | .vacMadc _ _ => some .vac
  | .pct _ _ => some .pct
  | .pctNf _ _ => some .pct
  | .pctUf _ _ => some .pct
  | .mvdc _ _ => some .mvdc
  | .mvdcAac _ _ => some .mvdc
  | .nf _ _ => some .nf
  | .nfUf _ _ => some .nf
  | .vdc _ _ => some .vdc
  | .vdcMaacdc _ _ => some .vdc
  | .ohm _ _ => some .ohm
  | .ohmK _ _ => some .ohm
  | .ohmM _ _ => some .ohm
  | .mvacdc _ _ => some .mvacdc
  | .uaac _ _ => some .uaac
  | .dbm _ _ => some .dbm
  | .dbmMaac _ _ => some .dbm
  | .vf _ _ => some .vf
  | .mvac _ _ => some .mvac
  | .mvacAacdc _ _ => some .mvac
  | .uadc _ _ => some .uadc
  | .adc _ _ => some .adc
  | .hz _ _ => some .hz
  | .uaacdc _ _ => some .uaacdc
  | .unknown _ _ _ => none
  | .badDigit _ _ _ => none
  | .raw _ _ => none

/-- The frame of a mode's row: the ROM's key for the mode, the row's other bits, the digits as bytes. -/
def modeFrame (t : Machine.ModeTable) (m : Mode) (b : Specials) (d : Digits) : Frame :=
  Machine.composeFrame (Machine.composeBf (t.entry m).key b) (Machine.digitBytes d)

/-- The frame of an instruction (30_encoding.md R70, R71). -/
def encodeFrame (t : Machine.ModeTable) : Instr → Frame
  | .vac b d => modeFrame t .vac b d
  | .vacMadc b d => modeFrame t .vac b d
  | .pct b d => modeFrame t .pct b d
  | .pctNf b d => modeFrame t .pct b d
  | .pctUf b d => modeFrame t .pct b d
  | .mvdc b d => modeFrame t .mvdc b d
  | .mvdcAac b d => modeFrame t .mvdc b d
  | .nf b d => modeFrame t .nf b d
  | .nfUf b d => modeFrame t .nf b d
  | .vdc b d => modeFrame t .vdc b d
  | .vdcMaacdc b d => modeFrame t .vdc b d
  | .ohm b d => modeFrame t .ohm b d
  | .ohmK b d => modeFrame t .ohm b d
  | .ohmM b d => modeFrame t .ohm b d
  | .mvacdc b d => modeFrame t .mvacdc b d
  | .uaac b d => modeFrame t .uaac b d
  | .dbm b d => modeFrame t .dbm b d
  | .dbmMaac b d => modeFrame t .dbm b d
  | .vf b d => modeFrame t .vf b d
  | .mvac b d => modeFrame t .mvac b d
  | .mvacAacdc b d => modeFrame t .mvac b d
  | .uadc b d => modeFrame t .uadc b d
  | .adc b d => modeFrame t .adc b d
  | .hz b d => modeFrame t .hz b d
  | .uaacdc b d => modeFrame t .uaacdc b d
  | .unknown k b d => Machine.composeFrame (Machine.composeBf k b) (Machine.digitBytes d)
  | .badDigit k b r => Machine.composeFrame (Machine.composeBf k b) r
  | .raw bf r => Machine.composeFrame bf r

/-- The output mode an instruction's row belongs to: CFG_RAW = 1 for RAW, 0 for every other row. -/
def Instr.cfgRaw : Instr → Bool
  | .raw _ _ => true
  | .vac _ _ | .vacMadc _ _ | .pct _ _ | .pctNf _ _ | .pctUf _ _ | .mvdc _ _ | .mvdcAac _ _
  | .nf _ _ | .nfUf _ _ | .vdc _ _ | .vdcMaacdc _ _ | .ohm _ _ | .ohmK _ _ | .ohmM _ _ | .mvacdc _ _
  | .uaac _ _ | .dbm _ _ | .dbmMaac _ _ | .vf _ _ | .mvac _ _ | .mvacAacdc _ _ | .uadc _ _
  | .adc _ _ | .hz _ _ | .uaacdc _ _ | .unknown _ _ _ | .badDigit _ _ _ => false

/-- The bytes of an instruction, in arrival order. -/
def encode (t : Machine.ModeTable) (i : Instr) : List Byte := Machine.frameBytes (encodeFrame t i)

/-- The 8 bytes of a frame given as one number, bit 0 the least significant bit of F[0]; the bits from `nbits`
up are 0. -/
def wordBytes (nbits w : Nat) : List Byte :=
  (List.range Config.frameLen).map fun i => BitVec.ofNat 8 ((w % 2 ^ nbits) >>> (8 * i))

/-- The instruction the decoder reads from a frame given as one number, in decoded mode (CFG_RAW = 0) and with
the machine's own ROM, as right after reset (log entry 11). -/
def decodeTableWord (nbits w : Nat) : Option Instr :=
  match decode Machine.modeTable false (wordBytes nbits w) with
  | .ok i => some i
  | .error _ => none

end Sys2Proof
end

