-- ==== Sys2Proof/Machine/Resync.lean ====
section
/-!
DEFINITION. The frame resync state machine (43_resync_fsm.md): its transitions, the inputs each state admits, and
one step on what the environment presents. RUN_FRAME runs the decoded instruction, which Step.lean supplies.
-/

namespace Sys2Proof.Machine

/-- T_SHORT_ACK (43_resync_fsm.md R183). -/
def State.tShortAck (s : State) : State := ({ s with timeoutCur := s.params.tShort } : State).enter .junk

/-- JUNK_DONE (43_resync_fsm.md R184): the bytes are discarded, whatever their number. -/
def State.junkDone (s : State) : State := s.enter .probe

/-- PROBE_SHORT (43_resync_fsm.md R185): not a SynchronizationLoss, and no retry limit. -/
def State.probeShort (s : State) : State := ({ s with syncRetry := satInc32 s.syncRetry } : State).enter .probe

/-- PROBE_FULL (43_resync_fsm.md R186): the aligning frame is discarded. -/
def State.probeFull (s : State) : State := s.enter .setLong

/-- T_LONG_ACK (43_resync_fsm.md R187): synchronisation is complete. -/
def State.tLongAck (s : State) : State := ({ s with timeoutCur := s.params.tLong } : State).enter .run

/-- RUN_SHORT (43_resync_fsm.md R188). -/
def State.runShort (k : Nat) (s : State) : State := s.raise (.synchronizationLoss k)

/-- FAIL (43_resync_fsm.md R190). -/
def State.streamFail (s : State) : State := s.raise .streamFailure

/-- CANCEL (43_resync_fsm.md R191): CLOSE is issued, and the outstanding command's response is never
processed. -/
def State.cancel (s : State) : State := s.raise .userCancellation

/-- The response to SET_TIMEOUT: Ack or Fail (20_memory.md R51); anything else has no step. -/
def answerSetTimeout (onAck : State) (r : Response) (s : State) : Host.Outcome State Fault Refusal :=
  match r with
  | .ack => .next onAck
  | .fail => .next s.streamFail
  | .data _ => .refused .responseOfWrongKind
  | .reserved => .refused .responseReserved

/-- The response to READ(n): Data of at most n bytes, or Fail (20_memory.md R51); anything else has no step. -/
def answerRead (n : Nat) (onData : List Byte → Host.Outcome State Fault Refusal) (r : Response) (s : State) :
    Host.Outcome State Fault Refusal :=
  match r with
  | .data bytes => if bytes.length ≤ n then onData bytes else .refused .responseTooLong
  | .fail => .next s.streamFail
  | .ack => .refused .responseOfWrongKind
  | .reserved => .refused .responseReserved

/-- RUN_FRAME and RUN_SHORT (43_resync_fsm.md R188, R189): a full read is a frame and runs as the instruction it
decodes to; a shorter one is a SynchronizationLoss. -/
def runData (run : Instr → State → Host.Outcome State Fault Refusal) (s : State) (bytes : List Byte) :
    Host.Outcome State Fault Refusal :=
  match decode s.rom s.cfgRaw bytes with
  | .ok i => run i s
  | .error (.notAFrame k) => .next (s.runShort k)

/-- The step on a response (43_resync_fsm.md R182, R197). A terminal state processes none (R192). -/
def answer (run : Instr → State → Host.Outcome State Fault Refusal) (r : Response) (s : State) :
    Host.Outcome State Fault Refusal :=
  match s.fsm with
  | .setShort => answerSetTimeout s.tShortAck r s
  | .junk => answerRead Config.junkLen (fun _ => .next s.junkDone) r s
  | .probe =>
    answerRead Config.frameLen
      (fun bytes => if bytes.length < Config.frameLen then .next s.probeShort else .next s.probeFull) r s
  | .setLong => answerSetTimeout s.tLongAck r s
  | .run => answerRead Config.frameLen (runData run s) r s
  | .closed => .next s
  | .failed => .next s

/-- One step on what the environment presents, in the order RESET, CANCEL, response (60_exceptions.md R238). In a
terminal state only RESET has an effect (43_resync_fsm.md R192, 60_exceptions.md R237; log entry 9), and where
nothing has arrived the block waits (60_exceptions.md R247). -/
def present (run : Instr → State → Host.Outcome State Fault Refusal) (i : Input) (s : State) :
    Host.Outcome State Fault Refusal :=
  if i.reset then .next (s.holdReset i.rawMode)
  else if s.inReset then .next (s.leaveReset i.rawMode)
  else if s.fsm.terminal then .next s
  else if i.cancel then .next s.cancel
  else
    match i.resp with
    | none => .next s
    | some r => answer run r s

/-- One step of the machine: it takes the next input the environment supplies; with none it waits, and all state
survives the wait (60_exceptions.md R247). -/
def tick (run : Instr → State → Host.Outcome State Fault Refusal) (s : State) : Host.Outcome State Fault Refusal :=
  match s.supply with
  | [] => .next s
  | i :: rest => present run i { s with inputs := rest }

end Sys2Proof.Machine
end

