-- ==== Sys2Proof/Machine/Step.lean ====
section
/-!
DEFINITION. One step of the machine (43_resync_fsm.md R180), and the state in which the next step receives a given
frame as an instruction.
-/

namespace Sys2Proof.Machine

/-- One step: the resync state machine, with `exec` for the frames it decodes. -/
def step (s : State) : Host.Outcome State Fault Refusal := tick exec s

/-- The state whose next step receives the frame with the given bits as a full ST_RUN read: RESET is not
asserted, READ(8) of ST_RUN is outstanding, and the next input is its Data(8) (43_resync_fsm.md R189; log entry
11). Nothing else changes. -/
def State.withFetchWord (s : State) (nbits w : Nat) : State :=
  { s with
    fsm := .run
    inReset := false
    inputs := Input.respond (.data (wordBytes nbits w)) :: s.inputs }

end Sys2Proof.Machine
end

