-- ==== Sys2Proof/Safety.lean ====
section
/-!
DEFINITION. The terms the claims use: which inputs the stream contract admits, the invariant of the machine, what
a record means as a Measurement, the source's own real-valued algorithm to hold the scaler against, the opcode
table's masks, and the state that one emitted record leads to.
-/

namespace Sys2Proof.Machine

/-- The responses a state admits (43_resync_fsm.md R182); a terminal state admits none (R192). -/
def admits (f : FsmState) (r : Response) : Bool :=
  match f, r with
  | .setShort, .ack => true
  | .setShort, .fail => true
  | .setLong, .ack => true
  | .setLong, .fail => true
  | .junk, .data bytes => decide (bytes.length ≤ 16)
  | .junk, .fail => true
  | .probe, .data bytes => decide (bytes.length ≤ 8)
  | .probe, .fail => true
  | .run, .data bytes => decide (bytes.length ≤ 8)
  | .run, .fail => true
  | _, _ => false

/-- The input that makes the next step act on a stream response: RESET not asserted and not just deasserted, no
CANCEL, and the state's command outstanding (60_exceptions.md R238). -/
structure State.Receives (s : State) (r : Response) (rest : List Input) : Prop where
  running : s.inReset = false
  waiting : s.fsm.terminal = false
  next : ∃ rawMode, s.supply = { reset := false, rawMode := rawMode, cancel := false, resp := some r } :: rest

/-- A record whose fields lie where 30_encoding.md R81 to R84 put them. -/
def recordLegal : Record → Bool
  | .measurement _ ovf neg dp mag =>
    if ovf then !neg && decide (dp = 0) && decide (mag = 0)
    else decide (dp.toNat ≤ 5) && decide (mag.toNat ≤ Config.magMax)
  | .unknownMode _ mag => decide (mag.toNat ≤ Config.magMax)
  | .badDigit _ _ => true
  | .raw bf key sign _ => decide (key = extractKey bf) && decide (sign = extractSign bf)

/-- The invariant of the machine: what holds at reset and every step keeps. -/
structure State.Inv (s : State) : Prop where
  /-- The ROM is one the spec admits (00_scope.md R7, 10_state.md R34, 30_encoding.md R77). -/
  rom : s.rom.wf = true
  /-- FAIL_CMD is 0 exactly while FSM_STATE is not ST_FAILED (10_state.md R28). -/
  failCmd : s.failCmd = .none ↔ s.fsm ≠ .failed
  /-- LAST_EXC is UserCancellation exactly in ST_CLOSED (43_resync_fsm.md R191, 60_exceptions.md R248). -/
  closed : s.lastExc = .userCancellation ↔ s.fsm = .closed
  /-- LAST_EXC is StreamFailure exactly in ST_FAILED (43_resync_fsm.md R190, 60_exceptions.md R248). -/
  failed : s.lastExc = .streamFailure ↔ s.fsm = .failed
  /-- TIMEOUT_CUR is T_SHORT from the Ack of T_SHORT to that of T_LONG (43_resync_fsm.md R195). -/
  timeoutShort : s.fsm = .junk ∨ s.fsm = .probe ∨ s.fsm = .setLong → s.timeoutCur = s.params.tShort
  /-- TIMEOUT_CUR is T_LONG in ST_RUN (43_resync_fsm.md R195). -/
  timeoutLong : s.fsm = .run → s.timeoutCur = s.params.tLong
  /-- TIMEOUT_CUR is 0 or T_LONG in ST_SET_SHORT (43_resync_fsm.md R195). -/
  timeoutEntry : s.fsm = .setShort → s.timeoutCur = 0 ∨ s.timeoutCur = s.params.tLong
  /-- SYNC_RETRY is 0 until the first probe of a synchronisation (10_state.md R25). -/
  syncRetry : s.fsm = .setShort ∨ s.fsm = .junk → s.syncRetry = 0
  /-- While RESET is asserted the registers below are at the reset values of 10_state.md R37. DEDUCED: that they are
  so already then, before the deassertion, is the model's reading of R20's "holds its reset state" (log entry 3). -/
  held : s.inReset = true → s.fsm = .setShort ∧ s.timeoutCur = 0 ∧ s.syncRetry = 0 ∧ s.resyncCount = 0 ∧
    s.lastExc = .none ∧ s.failCmd = .none
  /-- The last command issued is the one outstanding (43_resync_fsm.md R181). -/
  outstanding : s.inReset = false → s.fsm.terminal = false → s.commands.getLast? = commandOf s.params s.fsm
  /-- After a cancellation the last command issued is CLOSE (43_resync_fsm.md R191). -/
  closing : s.fsm = .closed → s.commands.getLast? = some .close
  /-- Every record emitted is one the layouts allow (30_encoding.md R85). -/
  records : ∀ r ∈ s.records, recordLegal r = true

/-- The state after a full frame that emitted one record and raised nothing: the record is at the sink, READ(8)
has been issued again, FSM_STATE is ST_RUN, and nothing else differs (43_resync_fsm.md R189). -/
def State.afterRecord (r : Record) (s : State) : State :=
  { s with records := s.records ++ [r], commands := s.commands ++ [.read 8], fsm := .run }

/-- The record of a form (30_encoding.md R87, last sentence, with R81): EXP = EXP0 + BF[0], NEG = BF[21] and not
FNN, OVF = BF[13]; with OVF = 1 the numeric fields are 0. -/
def formRecord (u : UnitLabel) (exp0 : Int) (fnn : Bool) (b : Specials) (d : Digits) : Record :=
  if b.ol then .measurement u true false 0 0
  else
    .measurement u false (b.sign && !fnn) (BitVec.ofNat 3 (-(exp0 + if b.x10 then 1 else 0)).toNat)
      (BitVec.ofNat 17 (10000 * d.d0.val + 1000 * d.d1.val + 100 * d.d2.val + 10 * d.d3.val + d.d4.val))

/-- The one record a full ST_RUN read gives the sink, by the pseudocode of 40_bitfield_extract.md R110 and
44_raw_passthrough.md R220. -/
def frameRecord (t : ModeTable) (cfgRaw : Bool) (f : Frame) : Record :=
  let bf := extractBf f
  if cfgRaw then .raw bf (extractKey bf) (extractSign bf) (digitsField (extractDig f))
  else
    match checkDig (extractDig f) with
    | none => .badDigit (extractKey bf) (digitsField (extractDig f))
    | some d =>
      match t.lookup (extractKey bf) with
      | none => .unknownMode (extractKey bf) (parseMag d)
      | some m => measurementRecord (extractSpecials bf) d (scale (t.entry m) (extractSpecials bf))

/-- The value of a Measurement: a number, exactly, or the sentinel (30_encoding.md R81, 00_scope.md R12). -/
inductive Value where
  | overflow
  | number (q : ℚ)
  deriving DecidableEq, Repr

/-- A Measurement: a value and a unit label (30_encoding.md R81). -/
structure Measurement where
  value : Value
  unit : String
  deriving DecidableEq, Repr

/-- The Measurement a record denotes: (-1)^NEG x MAG / 10^DP under the unit's label, or OVERFLOW; the other kinds
denote none (30_encoding.md R81, 42_scaler.md R166). -/
def recordMeasurement : Record → Option Measurement
  | .measurement u ovf neg dp mag =>
    some {
      value := if ovf then .overflow
        else .number ((if neg then -1 else 1) * (mag.toNat : ℚ) / 10 ^ dp.toNat)
      unit := unitText u }
  | .unknownMode _ _ => none
  | .badDigit _ _ => none
  | .raw _ _ _ _ => none

/-- The divisor of a mode, as the source lists it (30_encoding.md R77). -/
def divisorOf : Mode → Nat
  | .vac => 10000
  | .pct => 100
  | .mvdc => 1000
  | .nf => 100
  | .vdc => 10000
  | .ohm => 100
  | .mvacdc => 100
  | .uaac => 100
  | .dbm => 100
  | .vf => 10000
  | .mvac => 1000
  | .uadc => 100
  | .adc => 10000
  | .hz => 1000
  | .uaacdc => 100

/-- The working values of the source's algorithm: a real value, a unit label, and whether a rule has forced the
sign (42_scaler.md R150 to R163, the sentences quoted from the source). -/
structure SourceWork where
  value : ℚ
  unit : String
  forced : Bool

/-- The source's step 4: value := magnitude / mode.divisor, unit := mode.unit (42_scaler.md R150). -/
def sourceInit (m : Mode) (d : Digits) : SourceWork where
  value := (magnitude d : ℚ) / (divisorOf m : ℚ)
  unit := unitText (baseUnitOf m)
  forced := false

/-- The source's step 5, its ten unit-conditional rules in order on real values and label texts (the sentences
quoted in 42_scaler.md R152 to R161). -/
def sourceRules (b : Specials) : List (SourceWork → SourceWork) :=
  [ fun w => if w.unit = "Ohm" then
      if b.sel2 then { w with unit := "M Ohm", value := w.value / 100 }
      else if b.sel1 then { w with unit := "k Ohm", value := w.value / 10 } else w
      else w,
    fun w => if w.unit = "%" ∧ b.cap = true then { w with unit := "nF", value := w.value / 1000 } else w,
    fun w => if w.unit = "nF" ∧ b.sel2 = true then { w with unit := "uF", value := w.value * 10 } else w,
    fun w => if w.unit = "V AC" then
      { w with forced := true, value := if b.sel1 then w.value * 100 else w.value } else w,
    fun w => if w.unit = "mV DC" ∧ b.alt = true then
      { unit := "A AC", forced := true, value := w.value / 10 } else w,
    fun w => if w.unit = "V DC" ∧ b.alt = true then
      { w with unit := "mA AC DC", value := w.value * 10 } else w,
    fun w => if w.unit = "mV AC" ∧ b.alt = true then
      { w with unit := "A AC DC", value := w.value / 10 } else w,
    fun w => if w.unit = "V AC" ∧ b.alt = true then { w with unit := "mA DC" } else w,
    fun w => if w.unit = "dBm" ∧ b.sign = true then
      { unit := "ma AC", forced := true, value := w.value / 10 } else w,
    fun w => if w.unit = "uA AC" then { w with forced := true } else w ]

/-- The source's steps 4 to 9 on real values (42_scaler.md R150 to R166, R167). -/
def sourceMeasurement (m : Mode) (b : Specials) (d : Digits) : Measurement :=
  let w := (sourceRules b).foldl (fun w rule => rule w) (sourceInit m d)
  let scaled := if b.x10 then w.value * 10 else w.value
  let signed := if b.sign && !w.forced then -scaled else scaled
  { value := if b.ol then .overflow else .number signed, unit := w.unit }

/-- The exception event that an input causes in a state that takes it, by the causes of 60_exceptions.md R230 in
the order of R238 and R239: none where no event is raised. -/
def causedEvent (s : State) (i : Input) : Option ExcCode :=
  if i.cancel then some .userCancellation
  else
    match i.resp with
    | none => none
    | some .ack => none
    | some .reserved => none
    | some .fail => some .streamFailure
    | some (.data bytes) =>
      if s.fsm = .run then
        if bytes.length < 8 then some .synchronizationLoss
        else if s.cfgRaw then none
        else
          match frameOfBytes bytes with
          | none => none
          | some f =>
            if checkDig (extractDig f) = none then some .badDigit
            else if s.rom.lookup (extractKey (extractBf f)) = none then some .unknownMode
            else none
      else none

/-- What of a state the transitions may depend on when CFG_RAW, LAST_EXC and the records already emitted are left
out (43_resync_fsm.md R198; 10_state.md R27). -/
def State.withoutOutputMode (s : State) : State := { s with cfgRaw := false, lastExc := .none, records := [] }

/-- A state with its observation-only registers left out: TIMEOUT_CUR, SYNC_RETRY, RESYNC_COUNT, LAST_EXC and
FAIL_CMD, which no transition reads (10_state.md R24 to R28). -/
def State.withoutStatus (s : State) : State :=
  { s with timeoutCur := 0, syncRetry := 0, resyncCount := 0, lastExc := .none, failCmd := .none }

/-- The mask of an instruction's row of spec/opcode_table.json, over the BitField. -/
def rowMask : Instr → BitField
  | .vac _ _ => 0x001FF8
  | .vacMadc _ _ => 0x001FF8
  | .pct _ _ => 0x004FF8
  | .pctNf _ _ => 0x004FFC
  | .pctUf _ _ => 0x004FFC
  | .mvdc _ _ => 0x001FF8
  | .mvdcAac _ _ => 0x001FF8
  | .nf _ _ => 0x000FFC
  | .nfUf _ _ => 0x000FFC
  | .vdc _ _ => 0x001FF8
  | .vdcMaacdc _ _ => 0x001FF8
  | .ohm _ _ => 0x000FFE
  | .ohmK _ _ => 0x000FFE
  | .ohmM _ _ => 0x000FFC
  | .mvacdc _ _ => 0x000FF8
  | .uaac _ _ => 0x000FF8
  | .dbm _ _ => 0x200FF8
  | .dbmMaac _ _ => 0x200FF8
  | .vf _ _ => 0x000FF8
  | .mvac _ _ => 0x001FF8
  | .mvacAacdc _ _ => 0x001FF8
  | .uadc _ _ => 0x000FF8
  | .adc _ _ => 0x000FF8
  | .hz _ _ => 0x000FF8
  | .uaacdc _ _ => 0x000FF8
  | .unknown _ _ _ => 0x000FF8
  | .badDigit _ _ _ => 0x000000
  | .raw _ _ => 0x000000

/-- The match of an instruction's row of spec/opcode_table.json, for the keys of a ROM. The rows UNKNOWN,
BADDIGIT and RAW have no number there: UNKNOWN's is its key, the other two's is 0 under the mask 0. -/
def rowMatch (t : ModeTable) : Instr → BitField
  | .vac _ _ => t.vac.key.setWidth 24 <<< 3
  | .vacMadc _ _ => t.vac.key.setWidth 24 <<< 3 ||| 0x001000
  | .pct _ _ => t.pct.key.setWidth 24 <<< 3
  | .pctNf _ _ => t.pct.key.setWidth 24 <<< 3 ||| 0x004000
  | .pctUf _ _ => t.pct.key.setWidth 24 <<< 3 ||| 0x004004
  | .mvdc _ _ => t.mvdc.key.setWidth 24 <<< 3
  | .mvdcAac _ _ => t.mvdc.key.setWidth 24 <<< 3 ||| 0x001000
  | .nf _ _ => t.nf.key.setWidth 24 <<< 3
  | .nfUf _ _ => t.nf.key.setWidth 24 <<< 3 ||| 0x000004
  | .vdc _ _ => t.vdc.key.setWidth 24 <<< 3
  | .vdcMaacdc _ _ => t.vdc.key.setWidth 24 <<< 3 ||| 0x001000
  | .ohm _ _ => t.ohm.key.setWidth 24 <<< 3
  | .ohmK _ _ => t.ohm.key.setWidth 24 <<< 3 ||| 0x000002
  | .ohmM _ _ => t.ohm.key.setWidth 24 <<< 3 ||| 0x000004
  | .mvacdc _ _ => t.mvacdc.key.setWidth 24 <<< 3
  | .uaac _ _ => t.uaac.key.setWidth 24 <<< 3
  | .dbm _ _ => t.dbm.key.setWidth 24 <<< 3
  | .dbmMaac _ _ => t.dbm.key.setWidth 24 <<< 3 ||| 0x200000
  | .vf _ _ => t.vf.key.setWidth 24 <<< 3
  | .mvac _ _ => t.mvac.key.setWidth 24 <<< 3
  | .mvacAacdc _ _ => t.mvac.key.setWidth 24 <<< 3 ||| 0x001000
  | .uadc _ _ => t.uadc.key.setWidth 24 <<< 3
  | .adc _ _ => t.adc.key.setWidth 24 <<< 3
  | .hz _ _ => t.hz.key.setWidth 24 <<< 3
  | .uaacdc _ _ => t.uaacdc.key.setWidth 24 <<< 3
  | .unknown k _ _ => k.setWidth 24 <<< 3
  | .badDigit _ _ _ => 0
  | .raw _ _ => 0

end Sys2Proof.Machine
end

