-- ==== Sys2Proof/Certificates/Slice0/Obligations.lean ====
section
/-!
DEFINITION. The statements for the provers, from the numbered rules of spec/.
-/

open Sys2Proof Sys2Proof.Machine

/-- 10_state.md R37: the reset value of every register, both for the state a run starts in and for RESET
deasserted in any state; the ROM is unaffected. -/
def Obligations.ResetLoadsEveryRegister : Prop :=
  (∀ (rawMode : Bool) (rom : ModeTable) (params : Params),
    let s := State.resetWith rawMode rom params
    s.fsm = .setShort ∧ s.cfgRaw = rawMode ∧ s.timeoutCur = 0 ∧ s.syncRetry = 0 ∧ s.resyncCount = 0 ∧
      s.lastExc = .none ∧ s.failCmd = .none ∧ s.rom = rom) ∧
  (∀ (s : State) (i : Input) (rest : List Input),
    s.supply = i :: rest → i.reset = false → s.inReset = true → i.cancel = false → i.resp = none →
      ∃ t, step s = .next t ∧ t.fsm = .setShort ∧ t.cfgRaw = i.rawMode ∧ t.timeoutCur = 0 ∧ t.syncRetry = 0 ∧
        t.resyncCount = 0 ∧ t.lastExc = .none ∧ t.failCmd = .none ∧ t.rom = s.rom)

/-- 70_reset_and_hazards.md R260, R261, with 10_state.md R20: RESET may be asserted in any state; while it is
asserted no command is outstanding, nothing is issued and nothing is emitted; on its deassertion every register
is loaded and SET_TIMEOUT(T_SHORT) is issued. That a step with RESET asserted already puts every register at its
reset value, CFG_RAW following RAW_MODE, is the model's own reading of R20's 'holds its reset state' (DEDUCED,
log entry 3). -/
def Obligations.ResetAssertedThenDeasserted : Prop :=
  ∀ (s : State) (i : Input) (rest : List Input), s.supply = i :: rest →
    (i.reset = true →
      ∃ t, step s = .next t ∧ t.cmd = none ∧ cmdCode t.cmd = 0 ∧
        t = { s with inputs := rest, inReset := true, fsm := .setShort, cfgRaw := i.rawMode, timeoutCur := 0,
                     syncRetry := 0, resyncCount := 0, lastExc := .none, failCmd := .none }) ∧
    (i.reset = false → s.inReset = true → i.cancel = false → i.resp = none →
      ∃ t, step s = .next t ∧ t.cmd = some (.setTimeout s.params.tShort) ∧
        t = { s with inputs := rest, inReset := false, fsm := .setShort, cfgRaw := i.rawMode, timeoutCur := 0,
                     syncRetry := 0, resyncCount := 0, lastExc := .none, failCmd := .none,
                     commands := s.commands ++ [.setTimeout s.params.tShort] })

/-- 60_exceptions.md R238: with RESET asserted neither CANCEL nor a response is seen; with CANCEL a response to
the dropped command is never processed, whatever it is, nor is one that comes after. That the step of RESET's
deassertion drops what else it holds (log entry 3), and that a terminal state answers an input with a step that
drops it (log entry 9), are the model's choices. -/
def Obligations.ResetThenCancelThenResponse : Prop :=
  (∀ (s : State) (i : Input) (rest : List Input) (cancel : Bool) (resp : Option Response),
    i.reset = true ∨ s.inReset = true →
      step { s with inputs := { i with cancel := cancel, resp := resp } :: rest } =
        step { s with inputs := i :: rest }) ∧
  (∀ (s : State) (i : Input) (rest : List Input) (resp : Option Response),
    i.reset = false → s.inReset = false → s.fsm.terminal = false → i.cancel = true →
      step { s with inputs := { i with resp := resp } :: rest } =
        .next { s with inputs := rest, fsm := .closed, lastExc := .userCancellation,
                       commands := s.commands ++ [.close] }) ∧
  (∀ (s : State) (i : Input) (rest : List Input), s.supply = i :: rest →
    i.reset = false → s.inReset = false → s.fsm = .closed → step s = .next { s with inputs := rest })

/-- 43_resync_fsm.md R183, T_SHORT_ACK. -/
def Obligations.ShortTimeoutAcknowledged : Prop :=
  ∀ (s : State) (rest : List Input), s.Receives .ack rest → s.fsm = .setShort →
    step s = .next { s with inputs := rest, timeoutCur := s.params.tShort, fsm := .junk,
                            commands := s.commands ++ [.read 16] }

/-- 43_resync_fsm.md R184, JUNK_DONE: the bytes are discarded whatever their number, 8 and 16 included. -/
def Obligations.JunkReadDiscarded : Prop :=
  ∀ (s : State) (bytes : List Byte) (rest : List Input), s.Receives (.data bytes) rest → s.fsm = .junk →
    bytes.length ≤ 16 →
      step s = .next { s with inputs := rest, fsm := .probe, commands := s.commands ++ [.read 8] }

/-- 43_resync_fsm.md R185, PROBE_SHORT: SYNC_RETRY is incremented with saturation; LAST_EXC stays, since this is
no SynchronizationLoss. -/
def Obligations.ShortProbeRetries : Prop :=
  ∀ (s : State) (bytes : List Byte) (rest : List Input), s.Receives (.data bytes) rest → s.fsm = .probe →
    bytes.length < 8 →
      ∃ n : BitVec 32, n.toNat = min (s.syncRetry.toNat + 1) (2 ^ 32 - 1) ∧
        step s = .next { s with inputs := rest, syncRetry := n, commands := s.commands ++ [.read 8] }

/-- 43_resync_fsm.md R186, PROBE_FULL: the aligning frame is discarded, not decoded. -/
def Obligations.FullProbeAligns : Prop :=
  ∀ (s : State) (bytes : List Byte) (rest : List Input), s.Receives (.data bytes) rest → s.fsm = .probe →
    bytes.length = 8 →
      step s = .next { s with inputs := rest, fsm := .setLong,
                              commands := s.commands ++ [.setTimeout s.params.tLong] }

/-- 43_resync_fsm.md R187, T_LONG_ACK: synchronisation is complete, SYNC_RETRY keeps its count. -/
def Obligations.LongTimeoutAcknowledged : Prop :=
  ∀ (s : State) (rest : List Input), s.Receives .ack rest → s.fsm = .setLong →
    step s = .next { s with inputs := rest, timeoutCur := s.params.tLong, fsm := .run,
                            commands := s.commands ++ [.read 8] }

/-- 43_resync_fsm.md R188, RUN_SHORT, with SynchronizationLoss (60_exceptions.md R230): TIMEOUT_CUR keeps
T_LONG's value until the next Ack. -/
def Obligations.ShortReadInRunLosesSynchronization : Prop :=
  ∀ (s : State) (bytes : List Byte) (rest : List Input), s.Receives (.data bytes) rest → s.fsm = .run →
    bytes.length < 8 →
      ∃ n : BitVec 32, n.toNat = min (s.resyncCount.toNat + 1) (2 ^ 32 - 1) ∧
        step s = .next { s with inputs := rest, resyncCount := n, syncRetry := 0,
                                lastExc := .synchronizationLoss, fsm := .setShort,
                                commands := s.commands ++ [.setTimeout s.params.tShort] }

/-- 43_resync_fsm.md R189, RUN_FRAME: exactly one record, READ(8) issued again, FSM_STATE still ST_RUN; LAST_EXC
is the only other register that can change, and it does so only on UnknownMode or BadDigit. -/
def Obligations.FullReadInRunEmitsOneRecord : Prop :=
  ∀ (s : State) (f : Frame) (rest : List Input), s.Receives (.data (frameBytes f)) rest → s.fsm = .run →
    step s = exec (decodeFrame s.rom s.cfgRaw f) { s with inputs := rest } ∧
    ∃ (r : Record) (e : ExcCode),
      step s = .next { s with inputs := rest, records := s.records ++ [r], lastExc := e,
                              commands := s.commands ++ [.read 8] } ∧
      ((recordChannel r = .measurement ∧ e = s.lastExc) ∨
        (s.cfgRaw = false ∧ recordChannel r = .error ∧ (e = .unknownMode ∨ e = .badDigit))) ∧
      (s.cfgRaw = true ↔ ∃ bf k sg g, r = .raw bf k sg g)

/-- 43_resync_fsm.md R190, FAIL, in each of the states 0 to 4, and that only RESET leaves ST_FAILED. -/
def Obligations.StreamFailureIsFatal : Prop :=
  ∀ (s : State) (rest : List Input), s.Receives .fail rest →
    step s = .next { s with inputs := rest, fsm := .failed, lastExc := .streamFailure,
                            failCmd := if s.fsm = .setShort ∨ s.fsm = .setLong then .setTimeout else .read } ∧
    ∀ (n : Nat) (t : State), (∀ i ∈ rest ++ s.repeating, i.reset = false) → Sys2Proof.core.run (n + 1) s = .next t →
      t.fsm = .failed

/-- 43_resync_fsm.md R191, CANCEL, in each of the states 0 to 4, and that no record follows, in this step or
later. -/
def Obligations.CancellationClosesStream : Prop :=
  ∀ (s : State) (i : Input) (rest : List Input), s.supply = i :: rest → i.reset = false → s.inReset = false →
    s.fsm.terminal = false → i.cancel = true →
      step s = .next { s with inputs := rest, fsm := .closed, lastExc := .userCancellation,
                              commands := s.commands ++ [.close] } ∧
      ∀ (n : Nat) (t : State), (∀ j ∈ rest ++ s.repeating, j.reset = false) → Sys2Proof.core.run (n + 1) s = .next t →
        t.fsm = .closed ∧ t.records = s.records

/-- 43_resync_fsm.md R192, over runs: from ST_CLOSED or ST_FAILED, through any number of steps in which RESET is
not asserted, every register stays, no command is issued and no record is emitted. That the machine answers such
a step with the input dropped is the model's choice (log entry 9). -/
def Obligations.TerminalUntilReset : Prop :=
  ∀ (n : Nat) (s : State), s.inReset = false → s.fsm.terminal = true →
    (∀ i ∈ s.inputs ++ s.repeating, i.reset = false) →
      s.cmd = none ∧ ∃ left, Sys2Proof.core.run n s = .next { s with inputs := left } ∧
        (s.repeating = [] → left = s.inputs.drop n)

/-- 43_resync_fsm.md R182 and R180, last sentence: the step is total on the admissible responses, and a response
outside the contract has none (the model refuses it, log entry 8). -/
def Obligations.AdmissibleInputsHaveAStep : Prop :=
  (∀ (s : State) (r : Response) (rest : List Input), s.Receives r rest →
    (admits s.fsm r = true → ∃ t, step s = .next t) ∧
    (admits s.fsm r = false →
      step s = .refused .responseOfWrongKind ∨ step s = .refused .responseTooLong ∨
        step s = .refused .responseReserved)) ∧
  (∀ (s : State) (rest : List Input), s.supply = Input.cancellation :: rest → s.inReset = false →
    s.fsm.terminal = false → ∃ t, step s = .next t)

/-- 43_resync_fsm.md R180: the block takes no step without an input event; 60_exceptions.md R247: all state
survives a wait. That the model answers such a wait with a next state in which nothing has changed is the
model's choice (DESIGN CHOICE, log entry 1). -/
def Obligations.NoInputNoChange : Prop :=
  ∀ s : State,
    (s.supply = [] → step s = .next s) ∧
    (∀ (i : Input) (rest : List Input), s.supply = i :: rest → i.reset = false → s.inReset = false →
      i.cancel = false → i.resp = none → step s = .next { s with inputs := rest })

/-- 43_resync_fsm.md R193: one call of synchronize, for every junk read, every sequence of short probes and
every full probe. -/
def Obligations.SynchronizeRun : Prop :=
  ∀ (s : State) (pre : List Command) (junk full : List Byte) (shorts : List (List Byte)) (rest : List Input),
    s.inReset = false → s.fsm = .setShort → s.commands = pre ++ [.setTimeout s.params.tShort] →
    junk.length ≤ 16 → (∀ b ∈ shorts, b.length < 8) → full.length = 8 →
    s.inputs = [Input.respond .ack, Input.respond (.data junk)] ++ shorts.map (fun b => Input.respond (.data b)) ++
      [Input.respond (.data full), Input.respond .ack] ++ rest →
    ∃ n : BitVec 32, n.toNat = min (s.syncRetry.toNat + shorts.length) (2 ^ 32 - 1) ∧
      Sys2Proof.core.run (shorts.length + 4) s =
        .next { s with inputs := rest, fsm := .run, timeoutCur := s.params.tLong, syncRetry := n,
                       commands := pre ++ [.setTimeout s.params.tShort, .read 16, .read 8] ++
                         List.replicate shorts.length (.read 8) ++ [.setTimeout s.params.tLong, .read 8] }

/-- 43_resync_fsm.md R194: through any number of short probes the block stays in ST_PROBE, keeps taking steps
and emits nothing. -/
def Obligations.ProbeRetryIsUnbounded : Prop :=
  ∀ (s : State) (shorts : List (List Byte)) (rest : List Input),
    s.inReset = false → s.fsm = .probe → (∀ b ∈ shorts, b.length < 8) →
    s.inputs = shorts.map (fun b => Input.respond (.data b)) ++ rest →
    ∃ n : BitVec 32, n.toNat = min (s.syncRetry.toNat + shorts.length) (2 ^ 32 - 1) ∧
      Sys2Proof.core.run shorts.length s =
        .next { s with inputs := rest, syncRetry := n,
                       commands := s.commands ++ List.replicate shorts.length (.read 8) }

/-- 43_resync_fsm.md R196, over runs: a short read in ST_RUN, one synchronisation, then any frames; each frame
is emitted once and in order, and nothing else is. -/
def Obligations.ResynchronisedFramesAreEmittedInOrder : Prop :=
  ∀ (s : State) (lost junk full : List Byte) (shorts : List (List Byte)) (frames : List Frame) (rest : List Input),
    s.inReset = false → s.fsm = .run → lost.length < 8 → junk.length ≤ 16 → (∀ b ∈ shorts, b.length < 8) →
    full.length = 8 →
    s.inputs = [Input.respond (.data lost), Input.respond .ack, Input.respond (.data junk)] ++
      shorts.map (fun b => Input.respond (.data b)) ++ [Input.respond (.data full), Input.respond .ack] ++
      frames.map (fun f => Input.respond (.data (frameBytes f))) ++ rest →
    ∃ t, Sys2Proof.core.run (shorts.length + 5 + frames.length) s = .next t ∧
      t.records = s.records ++ frames.map (frameRecord s.rom s.cfgRaw) ∧ t.fsm = .run ∧ t.inputs = rest ∧
      t.syncRetry.toNat = min shorts.length (2 ^ 32 - 1) ∧
      t.resyncCount.toNat = min (s.resyncCount.toNat + 1) (2 ^ 32 - 1) ∧ t.timeoutCur = s.params.tLong

/-- 43_resync_fsm.md R195 and 10_state.md R24, over all steps: only the two acknowledgements (and reset) write
TIMEOUT_CUR, and SET_TIMEOUT is issued only on entry to ST_SET_SHORT and ST_SET_LONG. -/
def Obligations.TimeoutWrittenByAcksOnly : Prop :=
  ∀ (s t : State), step s = .next t →
    (t.timeoutCur = s.timeoutCur ∨
      (s.fsm = .setShort ∧ t.fsm = .junk ∧ t.timeoutCur = s.params.tShort) ∨
      (s.fsm = .setLong ∧ t.fsm = .run ∧ t.timeoutCur = s.params.tLong) ∨
      (∃ i rest, s.supply = i :: rest ∧ (i.reset = true ∨ s.inReset = true) ∧ t.timeoutCur = 0)) ∧
    ∃ new, t.commands = s.commands ++ new ∧ new.length ≤ 1 ∧
      ∀ ms, .setTimeout ms ∈ new →
        (t.fsm = .setShort ∧ ms = s.params.tShort) ∨ (t.fsm = .setLong ∧ ms = s.params.tLong)

/-- 60_exceptions.md R248, with the causes of R230 and the order of R239 as `causedEvent` states them: a step
that takes an input writes the event's code, and a step that raises none leaves LAST_EXC. -/
def Obligations.LastExcWrittenByEventsOnly : Prop :=
  ∀ (s t : State) (i : Input) (rest : List Input), s.supply = i :: rest → i.reset = false → s.inReset = false →
    s.fsm.terminal = false → step s = .next t → t.lastExc = (causedEvent s i).getD s.lastExc

/-- 20_memory.md R55, R62: at most one record a step, appended in order, and only by a full ST_RUN read that no
cancellation and no reset drops. -/
def Obligations.RecordsOnlyFromFullRunReads : Prop :=
  ∀ (s t : State), step s = .next t →
    t.records = s.records ∨
    ∃ r rawMode f rest, t.records = s.records ++ [r] ∧ s.inReset = false ∧ s.fsm = .run ∧
      s.supply = { reset := false, rawMode := rawMode, cancel := false, resp := some (.data (frameBytes f)) } :: rest

/-- 43_resync_fsm.md R198 with 10_state.md R27: two states that differ in CFG_RAW, LAST_EXC and the records
emitted take the same transition. -/
def Obligations.OutputModeDoesNotSteer : Prop :=
  ∀ (s s' : State), s.withoutOutputMode = s'.withoutOutputMode →
    (∀ t, step s = .next t → ∃ t', step s' = .next t' ∧ t.withoutOutputMode = t'.withoutOutputMode) ∧
    (∀ why, step s = .refused why → step s' = .refused why)

/-- 10_state.md R25 to R28, 'No transition reads it', and 60_exceptions.md R246: the mirror, the counters,
LAST_EXC and FAIL_CMD are observation only. -/
def Obligations.StatusRegistersDoNotSteer : Prop :=
  ∀ (s s' : State), s.withoutStatus = s'.withoutStatus →
    (∀ t, step s = .next t → ∃ t', step s' = .next t' ∧ t.withoutStatus = t'.withoutStatus) ∧
    (∀ why, step s = .refused why → step s' = .refused why)

/-- 10_state.md R23, R34 and 70_reset_and_hazards.md R268: no step writes the ROM; CFG_RAW changes only by
reset, to RAW_MODE. -/
def Obligations.RomAndOutputModeFixedWhileRunning : Prop :=
  ∀ (s t : State), step s = .next t →
    t.rom = s.rom ∧ t.params = s.params ∧
    (t.cfgRaw = s.cfgRaw ∨
      ∃ i rest, s.supply = i :: rest ∧ (i.reset = true ∨ s.inReset = true) ∧ t.cfgRaw = i.rawMode)

/-- State.Inv: the ROM is one the spec admits (00_scope.md R7, 10_state.md R34); FAIL_CMD is 0 exactly outside
ST_FAILED (10_state.md R28); LAST_EXC is UserCancellation exactly in ST_CLOSED and StreamFailure exactly in
ST_FAILED (43_resync_fsm.md R190, R191, 60_exceptions.md R248); TIMEOUT_CUR by state (43_resync_fsm.md R195);
SYNC_RETRY is 0 at the start of synchronisation (10_state.md R25); the command outstanding is the last one
issued (43_resync_fsm.md R181), which in ST_CLOSED is CLOSE (R191); every record emitted has its layout
(30_encoding.md R81 to R85). The clause held, that while RESET is asserted the registers it names are already at
their reset values, is the model's own reading of 10_state.md R20's 'holds its reset state' (DEDUCED, log entry
3). The field inReset and the histories of commands and records are the model's own (log entries 3 and 2). -/
def Obligations.EveryStepKeepsTheInvariant : Prop :=
  ∀ (s t : State), s.Inv → step s = .next t → t.Inv

/-- State.Inv holds right after reset, for every ROM the spec admits, every RAW_MODE and every choice of the
timeouts, and for State.reset, whose ROM has the open keys. -/
def Obligations.ResetMeetsTheInvariant : Prop :=
  State.reset.Inv ∧
    ∀ (rawMode : Bool) (rom : ModeTable) (params : Params), rom.wf = true →
      (State.resetWith rawMode rom params).Inv

/-- 40_bitfield_extract.md R100, R104, R105, R106 and 30_encoding.md R74: the BitField bit by bit and as a
number, the key by both formulas, the sign and the special bits. -/
def Obligations.ExtractorReadsTheBits : Prop :=
  ∀ f : Frame,
    (extractBf f).toNat = f.f0.toNat + 256 * f.f1.toNat + 65536 * f.f2.toNat ∧
    (∀ j < 8, (extractBf f).getLsbD j = f.f0.getLsbD j ∧ (extractBf f).getLsbD (8 + j) = f.f1.getLsbD j ∧
      (extractBf f).getLsbD (16 + j) = f.f2.getLsbD j) ∧
    (∀ j < 9, (extractKey (extractBf f)).getLsbD j = (extractBf f).getLsbD (3 + j)) ∧
    extractKey (extractBf f) = (f.f0.setWidth 9 >>> 3) ||| ((f.f1.setWidth 9 &&& 0x0F) <<< 5) ∧
    extractSign (extractBf f) = f.f2.getLsbD 5 ∧
    (let b := extractSpecials (extractBf f)
     b.x10 = f.f0.getLsbD 0 ∧ b.sel1 = f.f0.getLsbD 1 ∧ b.sel2 = f.f0.getLsbD 2 ∧ b.alt = f.f1.getLsbD 4 ∧
       b.ol = f.f1.getLsbD 5 ∧ b.cap = f.f1.getLsbD 6 ∧ b.sign = f.f2.getLsbD 5)

/-- 30_encoding.md R75, R76 and 40_bitfield_extract.md R101, R103: D_i is F[3+i]; a byte is a digit exactly when
it is 0x30 to 0x39; five digits give MAG by their places, at most 99999, exact in 17 bits. -/
def Obligations.DigitsCheckAndMagnitude : Prop :=
  ∀ f : Frame,
    ((checkDig (extractDig f)).isSome ↔
      ∀ x ∈ [f.f3, f.f4, f.f5, f.f6, f.f7], 0x30 ≤ x.toNat ∧ x.toNat ≤ 0x39) ∧
    ∀ d, checkDig (extractDig f) = some d →
      (parseMag d).toNat = 10000 * (f.f3.toNat - 0x30) + 1000 * (f.f4.toNat - 0x30) +
        100 * (f.f5.toNat - 0x30) + 10 * (f.f6.toNat - 0x30) + (f.f7.toNat - 0x30) ∧
      (parseMag d).toNat ≤ 99999

/-- 41_mode_lookup.md R120 on every ROM the spec admits, and 00_scope.md R7: this machine's own ROM is one. -/
def Obligations.LookupFindsTheUniqueMode : Prop :=
  modeTable.wf = true ∧
    ∀ (t : ModeTable) (k : ModeKey), t.wf = true →
      (∀ m, t.lookup k = some m ↔ (t.entry m).key = k) ∧
      (t.lookup k = none ↔ ∀ m, (t.entry m).key ≠ k) ∧
      (∀ m n, (t.entry m).key = k → (t.entry n).key = k → m = n) ∧
      ∀ m, (t.entry m).baseUnit = baseUnitOf m ∧ (t.entry m).divExp = divExpOf m

/-- 40_bitfield_extract.md R107: the record of a frame depends on the frame, the ROM and the output mode only,
and no register but LAST_EXC is written. -/
def Obligations.FrameDecoderIsPure : Prop :=
  ∀ (s s' : State) (f : Frame), s.rom = s'.rom →
    ∃ (r : Record) (e e' : ExcCode),
      exec (decodeFrame s.rom s.cfgRaw f) s = .next { s.afterRecord r with lastExc := e } ∧
      exec (decodeFrame s'.rom s.cfgRaw f) s' = .next { s'.afterRecord r with lastExc := e' } ∧
      ((e = s.lastExc ∧ e' = s'.lastExc) ∨ e = e')

/-- 30_encoding.md R70, R71, R87: no bit of any instruction's frame is dropped. -/
def Obligations.DecodeOfEncode : Prop :=
  ∀ (t : ModeTable) (i : Instr), t.wf = true → i.wf t = true → decode t i.cfgRaw (encode t i) = .ok i

/-- Each frame has one meaning (40_bitfield_extract.md R110): what it decodes to is well formed, belongs to the
output mode, and encodes to the same bytes. -/
def Obligations.EncodeOfDecode : Prop :=
  ∀ (t : ModeTable) (cfgRaw : Bool) (f : Frame), t.wf = true →
    (decodeFrame t cfgRaw f).wf t = true ∧ (decodeFrame t cfgRaw f).cfgRaw = cfgRaw ∧
      encode t (decodeFrame t cfgRaw f) = frameBytes f

/-- spec/opcode_table.json: a frame with valid digits decodes to a mode's row exactly when its BitField under
the row's mask is the row's match; and to UNKNOWN exactly when its key is in no entry. -/
def Obligations.DecodeFollowsTheOpcodeTable : Prop :=
  ∀ (t : ModeTable) (f : Frame) (d : Digits), t.wf = true → checkDig (extractDig f) = some d →
    (∀ i : Instr, i.mode.isSome = true →
      (extractBf f &&& rowMask i = rowMatch t i ↔ (decodeFrame t false f).ctorIdx = i.ctorIdx)) ∧
    ((∀ m, (t.entry m).key ≠ extractKey (extractBf f)) ↔
      decodeFrame t false f = .unknown (extractKey (extractBf f)) (extractSpecials (extractBf f)) d)

/-- Frames written out from 30_encoding.md R70, R71, R76, R89 for a ROM whose keys are 0x18B (V DC), 0x001 (Ohm)
and, for the other modes, 0x100 plus the mode's index: V DC scenario A, k Ohm, an unknown key, a bad digit, a
raw frame. -/
def Obligations.WrittenOutFramesDecode : Prop :=
  let key : Mode → ModeKey := fun m =>
    match m with
    | .vdc => 0x18B
    | .ohm => 0x001
    | m => BitVec.ofNat 9 (0x100 + m.ctorIdx)
  let t := ModeTable.ofKeys key
  let none' : Specials := ⟨false, false, false, false, false, false, false, 0, 0⟩
  decode t false [0x58, 0x0C, 0x00, 0x30, 0x31, 0x32, 0x33, 0x34] = .ok (.vdc none' ⟨0, 1, 2, 3, 4⟩) ∧
  decode t false [0x0A, 0x00, 0x20, 0x31, 0x32, 0x33, 0x34, 0x35] =
    .ok (.ohmK { none' with sel1 := true, sign := true } ⟨1, 2, 3, 4, 5⟩) ∧
  decode t false [0x10, 0x00, 0x00, 0x30, 0x30, 0x30, 0x34, 0x32] = .ok (.unknown 0x002 none' ⟨0, 0, 0, 4, 2⟩) ∧
  decode t false [0x08, 0x00, 0x00, 0x30, 0x31, 0x3A, 0x33, 0x34] =
    .ok (.badDigit 0x001 none' ⟨0x30, 0x31, 0x3A, 0x33, 0x34⟩) ∧
  decode t true [0x5A, 0x3C, 0x21, 0x39, 0x38, 0x37, 0x36, 0x35] =
    .ok (.raw 0x213C5A ⟨0x39, 0x38, 0x37, 0x36, 0x35⟩) ∧
  decode t false [0x58, 0x0C, 0x00, 0x30, 0x31, 0x32, 0x33] = .error (.notAFrame 7)

/-- 43_resync_fsm.md R189: in ST_RUN the step on a full read is the meaning of the instruction its bytes decode
to, on the state with that input taken; and withFetchWord, which is the model's own (DESIGN CHOICE, log entry
11), sets up such a step. -/
def Obligations.StepRunsTheDecodedInstruction : Prop :=
  (∀ (s : State) (bytes : List Byte) (rest : List Input) (i : Instr),
    s.Receives (.data bytes) rest → s.fsm = .run → decode s.rom s.cfgRaw bytes = .ok i →
      step s = exec i { s with inputs := rest }) ∧
  (∀ (s : State) (nbits w : Nat) (i : Instr), decode s.rom s.cfgRaw (wordBytes nbits w) = .ok i →
    step (s.withFetchWord nbits w) = exec i { s with fsm := .run, inReset := false })

/-- 30_encoding.md R80 to R85: the fields of a record are read back from its 80-bit word at the places of R81 to
R84, the KIND is 0 to 3, the UNIT 0 to 22, and every bit the layouts mark '-' is 0. -/
def Obligations.RecordWordsHoldTheirFields : Prop :=
  (∀ r : Record, recordOfWord (recordWord r) = some r) ∧
  (∀ (u : UnitLabel) (ovf neg : Bool) (dp : BitVec 3) (mag : Magnitude),
    (recordWord (.measurement u ovf neg dp mag)).toNat < 2 ^ 30 ∧
      (recordWord (.measurement u ovf neg dp mag)).extractLsb' 0 3 = 0 ∧
      ((recordWord (.measurement u ovf neg dp mag)).extractLsb' 3 5).toNat ≤ 22) ∧
  (∀ (k : ModeKey) (mag : Magnitude),
    (recordWord (.unknownMode k mag)).toNat < 2 ^ 29 ∧ (recordWord (.unknownMode k mag)).extractLsb' 0 3 = 1) ∧
  (∀ (k : ModeKey) (g : BitVec 40),
    (recordWord (.badDigit k g)).toNat < 2 ^ 52 ∧ (recordWord (.badDigit k g)).extractLsb' 0 3 = 2) ∧
  (∀ (bf : BitField) (k : ModeKey) (sg : Bool) (g : BitVec 40),
    (recordWord (.raw bf k sg g)).toNat < 2 ^ 77 ∧ (recordWord (.raw bf k sg g)).extractLsb' 0 3 = 3)

/-- 10_state.md R29: the fields of the four status registers at their bits, 0 elsewhere, writes ignored, and the
reset column. -/
def Obligations.StatusPortReadsTheRegisters : Prop :=
  ∀ s : State,
    (s.statusRead 0).extractLsb' 0 3 = fsmCode s.fsm ∧ (s.statusRead 0).getLsbD 3 = s.cfgRaw ∧
    ((s.statusRead 0).getLsbD 4 = true ↔ s.fsm = .closed ∨ s.fsm = .failed) ∧
    (s.statusRead 0).extractLsb' 5 3 = excCode s.lastExc ∧ (s.statusRead 0).extractLsb' 8 2 = failCode s.failCmd ∧
    (s.statusRead 0).toNat < 2 ^ 10 ∧
    (s.statusRead 1).toNat = s.timeoutCur.toNat ∧ s.statusRead 2 = s.syncRetry ∧
    s.statusRead 3 = s.resyncCount ∧ (∀ n, 3 < n → s.statusRead n = 0) ∧
    (fsmCode s.fsm).toNat ≤ 6 ∧ (excCode s.lastExc).toNat ≤ 5 ∧ (failCode s.failCmd).toNat ≤ 2 ∧
    (∀ n v, s.statusWrite n v = s) ∧
    (∀ (rawMode : Bool) (rom : ModeTable) (params : Params),
      let r := State.resetWith rawMode rom params
      (r.statusRead 0).toNat = (if rawMode then 8 else 0) ∧ r.statusRead 1 = 0 ∧ r.statusRead 2 = 0 ∧
        r.statusRead 3 = 0)

/-- 41_mode_lookup.md R122: the rows' results, each the whole next state (so the frame too), and which frames
decode to them. -/
def Obligations.VacFramesMeasure : Prop :=
  ∀ s : State, s.rom.wf = true →
    (∀ (b : Specials) (d : Digits), b.alt = false →
      exec (.vac b d) s = .next (s.afterRecord (formRecord .vAc (if b.sel1 then -2 else -4) true b d))) ∧
    (∀ (b : Specials) (d : Digits), b.alt = true →
      exec (.vacMadc b d) s = .next (s.afterRecord (formRecord .mADc (if b.sel1 then -2 else -4) true b d))) ∧
    (∀ (f : Frame) (d : Digits), extractKey (extractBf f) = s.rom.vac.key → checkDig (extractDig f) = some d →
      let b := extractSpecials (extractBf f)
      decodeFrame s.rom false f = if b.alt then .vacMadc b d else .vac b d)

/-- 41_mode_lookup.md R123: the rows' results, each the whole next state (so the frame too), and which frames
decode to them. -/
def Obligations.PctFramesMeasure : Prop :=
  ∀ s : State, s.rom.wf = true →
    (∀ (b : Specials) (d : Digits), b.cap = false →
      exec (.pct b d) s = .next (s.afterRecord (formRecord .percent (-2) false b d))) ∧
    (∀ (b : Specials) (d : Digits), b.cap = true → b.sel2 = false →
      exec (.pctNf b d) s = .next (s.afterRecord (formRecord .nf (-5) false b d))) ∧
    (∀ (b : Specials) (d : Digits), b.cap = true → b.sel2 = true →
      exec (.pctUf b d) s = .next (s.afterRecord (formRecord .uf (-4) false b d))) ∧
    (∀ (f : Frame) (d : Digits), extractKey (extractBf f) = s.rom.pct.key → checkDig (extractDig f) = some d →
      let b := extractSpecials (extractBf f)
      decodeFrame s.rom false f = if b.cap then (if b.sel2 then .pctUf b d else .pctNf b d) else .pct b d)

/-- 41_mode_lookup.md R124: the rows' results, each the whole next state (so the frame too), and which frames
decode to them. -/
def Obligations.MvdcFramesMeasure : Prop :=
  ∀ s : State, s.rom.wf = true →
    (∀ (b : Specials) (d : Digits), b.alt = false →
      exec (.mvdc b d) s = .next (s.afterRecord (formRecord .mvDc (-3) false b d))) ∧
    (∀ (b : Specials) (d : Digits), b.alt = true →
      exec (.mvdcAac b d) s = .next (s.afterRecord (formRecord .aAc (-4) true b d))) ∧
    (∀ (f : Frame) (d : Digits), extractKey (extractBf f) = s.rom.mvdc.key → checkDig (extractDig f) = some d →
      let b := extractSpecials (extractBf f)
      decodeFrame s.rom false f = if b.alt then .mvdcAac b d else .mvdc b d)

/-- 41_mode_lookup.md R125: the rows' results, each the whole next state (so the frame too), and which frames
decode to them. -/
def Obligations.NfFramesMeasure : Prop :=
  ∀ s : State, s.rom.wf = true →
    (∀ (b : Specials) (d : Digits), b.sel2 = false →
      exec (.nf b d) s = .next (s.afterRecord (formRecord .nf (-2) false b d))) ∧
    (∀ (b : Specials) (d : Digits), b.sel2 = true →
      exec (.nfUf b d) s = .next (s.afterRecord (formRecord .uf (-1) false b d))) ∧
    (∀ (f : Frame) (d : Digits), extractKey (extractBf f) = s.rom.nf.key → checkDig (extractDig f) = some d →
      let b := extractSpecials (extractBf f)
      decodeFrame s.rom false f = if b.sel2 then .nfUf b d else .nf b d)

/-- 41_mode_lookup.md R126: the rows' results, each the whole next state (so the frame too), and which frames
decode to them. -/
def Obligations.VdcFramesMeasure : Prop :=
  ∀ s : State, s.rom.wf = true →
    (∀ (b : Specials) (d : Digits), b.alt = false →
      exec (.vdc b d) s = .next (s.afterRecord (formRecord .vDc (-4) false b d))) ∧
    (∀ (b : Specials) (d : Digits), b.alt = true →
      exec (.vdcMaacdc b d) s = .next (s.afterRecord (formRecord .mAAcDc (-3) false b d))) ∧
    (∀ (f : Frame) (d : Digits), extractKey (extractBf f) = s.rom.vdc.key → checkDig (extractDig f) = some d →
      let b := extractSpecials (extractBf f)
      decodeFrame s.rom false f = if b.alt then .vdcMaacdc b d else .vdc b d)

/-- 41_mode_lookup.md R127: the rows' results, each the whole next state (so the frame too), and which frames
decode to them. -/
def Obligations.OhmFramesMeasure : Prop :=
  ∀ s : State, s.rom.wf = true →
    (∀ (b : Specials) (d : Digits), b.sel1 = false → b.sel2 = false →
      exec (.ohm b d) s = .next (s.afterRecord (formRecord .ohm (-2) false b d))) ∧
    (∀ (b : Specials) (d : Digits), b.sel1 = true → b.sel2 = false →
      exec (.ohmK b d) s = .next (s.afterRecord (formRecord .kiloOhm (-3) false b d))) ∧
    (∀ (b : Specials) (d : Digits), b.sel2 = true →
      exec (.ohmM b d) s = .next (s.afterRecord (formRecord .megaOhm (-4) false b d))) ∧
    (∀ (f : Frame) (d : Digits), extractKey (extractBf f) = s.rom.ohm.key → checkDig (extractDig f) = some d →
      let b := extractSpecials (extractBf f)
      decodeFrame s.rom false f = if b.sel2 then .ohmM b d else if b.sel1 then .ohmK b d else .ohm b d)

/-- 41_mode_lookup.md R129: the rows' results, each the whole next state (so the frame too), and which frames
decode to them. -/
def Obligations.UaacFramesMeasure : Prop :=
  ∀ s : State, s.rom.wf = true →
    (∀ (b : Specials) (d : Digits),
      exec (.uaac b d) s = .next (s.afterRecord (formRecord .uaAc (-2) true b d))) ∧
    (∀ (f : Frame) (d : Digits), extractKey (extractBf f) = s.rom.uaac.key → checkDig (extractDig f) = some d →
      let b := extractSpecials (extractBf f)
      decodeFrame s.rom false f = .uaac b d)

/-- 41_mode_lookup.md R130: the rows' results, each the whole next state (so the frame too), and which frames
decode to them. -/
def Obligations.DbmFramesMeasure : Prop :=
  ∀ s : State, s.rom.wf = true →
    (∀ (b : Specials) (d : Digits), b.sign = false →
      exec (.dbm b d) s = .next (s.afterRecord (formRecord .dbm (-2) false b d))) ∧
    (∀ (b : Specials) (d : Digits), b.sign = true →
      exec (.dbmMaac b d) s = .next (s.afterRecord (formRecord .maAc (-3) true b d))) ∧
    (∀ (f : Frame) (d : Digits), extractKey (extractBf f) = s.rom.dbm.key → checkDig (extractDig f) = some d →
      let b := extractSpecials (extractBf f)
      decodeFrame s.rom false f = if b.sign then .dbmMaac b d else .dbm b d)

/-- 41_mode_lookup.md R132: the rows' results, each the whole next state (so the frame too), and which frames
decode to them. -/
def Obligations.MvacFramesMeasure : Prop :=
  ∀ s : State, s.rom.wf = true →
    (∀ (b : Specials) (d : Digits), b.alt = false →
      exec (.mvac b d) s = .next (s.afterRecord (formRecord .mvAc (-3) false b d))) ∧
    (∀ (b : Specials) (d : Digits), b.alt = true →
      exec (.mvacAacdc b d) s = .next (s.afterRecord (formRecord .aAcDc (-4) false b d))) ∧
    (∀ (f : Frame) (d : Digits), extractKey (extractBf f) = s.rom.mvac.key → checkDig (extractDig f) = some d →
      let b := extractSpecials (extractBf f)
      decodeFrame s.rom false f = if b.alt then .mvacAacdc b d else .mvac b d)

/-- 41_mode_lookup.md R128, R131, R133, R134, R135, R136: the six modes no rewrite can fire for, each the whole
next state, and which frames decode to them. -/
def Obligations.UnrewrittenModesMeasure : Prop :=
  ∀ s : State, s.rom.wf = true →
    (∀ (b : Specials) (d : Digits),
      exec (.mvacdc b d) s = .next (s.afterRecord (formRecord .mvAcDc (-2) false b d))) ∧
    (∀ (b : Specials) (d : Digits),
      exec (.vf b d) s = .next (s.afterRecord (formRecord .vf (-4) false b d))) ∧
    (∀ (b : Specials) (d : Digits),
      exec (.uadc b d) s = .next (s.afterRecord (formRecord .uaDc (-2) false b d))) ∧
    (∀ (b : Specials) (d : Digits),
      exec (.adc b d) s = .next (s.afterRecord (formRecord .aDc (-4) false b d))) ∧
    (∀ (b : Specials) (d : Digits),
      exec (.hz b d) s = .next (s.afterRecord (formRecord .hz (-3) false b d))) ∧
    (∀ (b : Specials) (d : Digits),
      exec (.uaacdc b d) s = .next (s.afterRecord (formRecord .uaAcDc (-2) false b d))) ∧
    (∀ (f : Frame) (d : Digits), extractKey (extractBf f) = s.rom.mvacdc.key → checkDig (extractDig f) = some d →
      let b := extractSpecials (extractBf f)
      decodeFrame s.rom false f = .mvacdc b d) ∧
    (∀ (f : Frame) (d : Digits), extractKey (extractBf f) = s.rom.vf.key → checkDig (extractDig f) = some d →
      let b := extractSpecials (extractBf f)
      decodeFrame s.rom false f = .vf b d) ∧
    (∀ (f : Frame) (d : Digits), extractKey (extractBf f) = s.rom.uadc.key → checkDig (extractDig f) = some d →
      let b := extractSpecials (extractBf f)
      decodeFrame s.rom false f = .uadc b d) ∧
    (∀ (f : Frame) (d : Digits), extractKey (extractBf f) = s.rom.adc.key → checkDig (extractDig f) = some d →
      let b := extractSpecials (extractBf f)
      decodeFrame s.rom false f = .adc b d) ∧
    (∀ (f : Frame) (d : Digits), extractKey (extractBf f) = s.rom.hz.key → checkDig (extractDig f) = some d →
      let b := extractSpecials (extractBf f)
      decodeFrame s.rom false f = .hz b d) ∧
    (∀ (f : Frame) (d : Digits), extractKey (extractBf f) = s.rom.uaacdc.key → checkDig (extractDig f) = some d →
      let b := extractSpecials (extractBf f)
      decodeFrame s.rom false f = .uaacdc b d)

/-- 41_mode_lookup.md R121 with 30_encoding.md R82: the record, the exception entry and the frame, and which
frames decode to it: valid digits and a key in no entry, whatever the other bits. -/
def Obligations.UnknownKeyReportsUnknownMode : Prop :=
  ∀ s : State,
    (∀ (k : ModeKey) (b : Specials) (d : Digits),
      exec (.unknown k b d) s =
        .next { s.afterRecord (.unknownMode k (BitVec.ofNat 17 (10000 * d.d0.val + 1000 * d.d1.val +
          100 * d.d2.val + 10 * d.d3.val + d.d4.val))) with lastExc := .unknownMode }) ∧
    (∀ (f : Frame) (d : Digits), checkDig (extractDig f) = some d →
      (∀ m, (s.rom.entry m).key ≠ extractKey (extractBf f)) →
        decodeFrame s.rom false f = .unknown (extractKey (extractBf f)) (extractSpecials (extractBf f)) d) ∧
    (∀ (k : ModeKey) (mag : Magnitude), recordChannel (.unknownMode k mag) = .error)

/-- 40_bitfield_extract.md R102 with 30_encoding.md R83, R88: the record, the exception entry and the frame; any
byte outside 0x30 to 0x39 gives it, whatever the key and the special bits. -/
def Obligations.BadDigitComesFirst : Prop :=
  ∀ s : State,
    (∀ (k : ModeKey) (b : Specials) (r : RawDigits),
      exec (.badDigit k b r) s =
        .next { s.afterRecord (.badDigit k (digitsField r)) with lastExc := .badDigit }) ∧
    (∀ f : Frame, (∃ x ∈ [f.f3, f.f4, f.f5, f.f6, f.f7], x.toNat < 0x30 ∨ 0x39 < x.toNat) →
      decodeFrame s.rom false f =
        .badDigit (extractKey (extractBf f)) (extractSpecials (extractBf f)) (extractDig f)) ∧
    (∀ f : Frame, (∀ x ∈ [f.f3, f.f4, f.f5, f.f6, f.f7], 0x30 ≤ x.toNat ∧ x.toNat ≤ 0x39) →
      ∀ k b r, decodeFrame s.rom false f ≠ .badDigit k b r) ∧
    (∀ f : Frame, (digitsField (extractDig f)).toNat = f.f3.toNat + 2 ^ 8 * f.f4.toNat + 2 ^ 16 * f.f5.toNat +
      2 ^ 24 * f.f6.toNat + 2 ^ 32 * f.f7.toNat) ∧
    (∀ (k : ModeKey) (g : BitVec 40), recordChannel (.badDigit k g) = .error)

/-- 44_raw_passthrough.md R220, R221: every frame gives a RAW record in raw mode, LAST_EXC stays. -/
def Obligations.RawFramesPassThrough : Prop :=
  ∀ s : State,
    (∀ (bf : BitField) (r : RawDigits),
      exec (.raw bf r) s = .next (s.afterRecord (.raw bf (bf.extractLsb' 3 9) (bf.getLsbD 21) (digitsField r)))) ∧
    (∀ f : Frame, decodeFrame s.rom true f = .raw (extractBf f) (extractDig f)) ∧
    (∀ f : Frame, (digitsField (extractDig f)).toNat = f.f3.toNat + 2 ^ 8 * f.f4.toNat + 2 ^ 16 * f.f5.toNat +
      2 ^ 24 * f.f6.toNat + 2 ^ 32 * f.f7.toNat)

/-- 42_scaler.md R167: the record's exact decimal value and label are the source's real-valued result, for every
mode, every special bit and every magnitude; the source's algorithm (`sourceMeasurement`) works on rationals and
label texts. -/
def Obligations.ScalerMeetsTheSource : Prop :=
  ∀ (t : ModeTable) (m : Mode) (b : Specials) (d : Digits), t.wf = true →
    recordMeasurement (measurementRecord b d (scale (t.entry m) b)) = some (sourceMeasurement m b d)

/-- 42_scaler.md R164: EXP lies in -5 to 0 after INIT, after every rule of the chain and after MUL10; where each
end is reached. -/
def Obligations.ExponentStaysInRange : Prop :=
  ∀ (t : ModeTable) (m : Mode) (b : Specials), t.wf = true →
    (∀ n : Nat, let w := (rewriteRules.take n).foldl (fun w rule => rule b w) (scaleInit (t.entry m));
      -5 ≤ w.exp ∧ w.exp ≤ 0) ∧
    -5 ≤ (scale (t.entry m) b).exp ∧ (scale (t.entry m) b).exp ≤ 0 ∧
    ((scaleInit (t.entry m)).exp = -2 ∨ (scaleInit (t.entry m)).exp = -3 ∨ (scaleInit (t.entry m)).exp = -4) ∧
    ((scale (t.entry m) b).exp = -5 ↔ m = .pct ∧ b.cap = true ∧ b.sel2 = false ∧ b.x10 = false) ∧
    ((scale (t.entry m) b).exp = 0 ↔ m = .nf ∧ b.sel2 = true ∧ b.x10 = true) ∧
    (decimalPlaces (scale (t.entry m) b)).toNat = (-(scale (t.entry m) b).exp).toNat

/-- 41_mode_lookup.md R137, as the source states it: a known key, valid digits and every special bit clear give
the base unit and M / 10^DIVEXP_m; the unused bits are free. -/
def Obligations.PlainFramesFollowTheModeTable : Prop :=
  ∀ (s : State) (f : Frame) (m : Mode) (d : Digits), s.rom.wf = true →
    extractKey (extractBf f) = (s.rom.entry m).key → checkDig (extractDig f) = some d →
    (∀ j ∈ [0, 1, 2, 12, 13, 14, 21], (extractBf f).getLsbD j = false) →
      ∃ r t, exec (decodeFrame s.rom false f) s = .next t ∧ t = s.afterRecord r ∧
        recordMeasurement r =
          some { value := .number ((magnitude d : ℚ) / 10 ^ (divExpOf m).toNat), unit := unitText (baseUnitOf m) }

/-- 30_encoding.md R73: two frames that differ only in BF[15] to BF[20], BF[22] and BF[23] (mask 0xDF8000) leave
the same state in decoded mode; in raw mode the record carries the BitField with them. -/
def Obligations.UnusedBitsDoNotMatter : Prop :=
  ∀ (s : State) (f g : Frame), s.rom.wf = true → extractDig f = extractDig g →
    extractBf f &&& ~~~0xDF8000 = extractBf g &&& ~~~0xDF8000 →
      exec (decodeFrame s.rom false f) s = exec (decodeFrame s.rom false g) s ∧
      ∃ k sg g', exec (decodeFrame s.rom true f) s = .next (s.afterRecord (.raw (extractBf f) k sg g'))

/-- 43_resync_fsm.md R194: the infinite run. First, one state whose environment, held in the model's own field
(log entry 1), repeats short probe responses without end: every number of steps is in ST_PROBE, each step a
probe. Second, for every infinite sequence of short probe responses whatever, periodic or not, an infinite
sequence of states that are each the step of the one before on the next response. -/
def Obligations.ProbeRetryRunsForever : Prop :=
  (∀ (s : State) (shorts : List (List Byte)), s.inReset = false → s.fsm = .probe → s.inputs = [] →
    shorts ≠ [] → (∀ b ∈ shorts, b.length < 8) →
    s.repeating = shorts.map (fun b => Input.respond (.data b)) →
      ∀ n : Nat, ∃ t, Sys2Proof.core.run n s = .next t ∧ t.fsm = .probe ∧ t.supply ≠ [] ∧ t.records = s.records ∧
        t.commands = s.commands ++ List.replicate n (.read 8) ∧
        t.syncRetry.toNat = min (s.syncRetry.toNat + n) (2 ^ 32 - 1)) ∧
  (∀ (s : State) (probes : Nat → List Byte), s.inReset = false → s.fsm = .probe →
    (∀ n, (probes n).length < 8) →
      ∃ states : Nat → State, states 0 = s ∧ ∀ n,
        step { states n with inputs := Input.respond (.data (probes n)) :: (states n).inputs } =
          .next (states (n + 1)) ∧
        (states n).fsm = .probe ∧ (states n).records = s.records ∧
        (states n).commands = s.commands ++ List.replicate n (.read 8))

/-- 70_reset_and_hazards.md R272, the run that is infinite in ST_RUN: an environment that repeats full frames
without end. The environment that repeats is held in the model's own field (log entry 1). -/
def Obligations.SteadyStateRunsForever : Prop :=
  ∀ (s : State) (frames : List Frame), s.inReset = false → s.fsm = .run → s.inputs = [] → frames ≠ [] →
    s.repeating = frames.map (fun f => Input.respond (.data (frameBytes f))) →
      ∀ n : Nat, ∃ t more, Sys2Proof.core.run n s = .next t ∧ t.fsm = .run ∧ t.supply ≠ [] ∧
        t.commands = s.commands ++ List.replicate n (.read 8) ∧ t.records = s.records ++ more ∧ more.length = n ∧
        ∀ r ∈ more, r ∈ frames.map (frameRecord s.rom s.cfgRaw)
end

