-- ==== Sys2Proof/Laws/Extract.lean ====
section
/-!
SUPPORT. What the bitfield extractor and the composition of a frame do to each other, and the digit laws: one
lemma for each, cited instead of unfolding them.
-/

namespace Sys2Proof.Machine

@[simp] theorem extractKey_composeBf (k : ModeKey) (b : Specials) : extractKey (composeBf k b) = k := by
  apply BitVec.eq_of_getLsbD_eq
  intro i hi
  interval_cases i <;>
    simp only [extractKey, composeBf, BitVec.getLsbD_extractLsb', BitVec.getLsbD_cast, BitVec.getLsbD_append] <;> simp

@[simp] theorem extractSign_composeBf (k : ModeKey) (b : Specials) :
    extractSign (composeBf k b) = b.sign := by
  simp only [extractSign, composeBf, BitVec.getLsbD_cast, BitVec.getLsbD_append]
  simp

@[simp] theorem extractSpecials_composeBf (k : ModeKey) (b : Specials) :
    extractSpecials (composeBf k b) = b := by
  obtain ⟨x10, sel1, sel2, alt, ol, cap, sign, lo, hi⟩ := b
  simp only [extractSpecials, extractSign_composeBf, Specials.mk.injEq]
  refine ⟨?_, ?_, ?_, ?_, ?_, ?_, trivial, ?_, ?_⟩
  · simp only [composeBf, BitVec.getLsbD_cast, BitVec.getLsbD_append]
    simp
  · simp only [composeBf, BitVec.getLsbD_cast, BitVec.getLsbD_append]
    simp
  · simp only [composeBf, BitVec.getLsbD_cast, BitVec.getLsbD_append]
    simp
  · simp only [composeBf, BitVec.getLsbD_cast, BitVec.getLsbD_append]
    simp
  · simp only [composeBf, BitVec.getLsbD_cast, BitVec.getLsbD_append]
    simp
  · simp only [composeBf, BitVec.getLsbD_cast, BitVec.getLsbD_append]
    simp
  · apply BitVec.eq_of_getLsbD_eq
    intro i hi
    interval_cases i <;>
      simp only [composeBf, BitVec.getLsbD_extractLsb', BitVec.getLsbD_cast, BitVec.getLsbD_append] <;> simp
  · apply BitVec.eq_of_getLsbD_eq
    intro i hi
    interval_cases i <;>
      simp only [composeBf, BitVec.getLsbD_extractLsb', BitVec.getLsbD_cast, BitVec.getLsbD_append] <;> simp

/-- No bit of a BitField is lost in its key and the bits outside it. -/
@[simp] theorem composeBf_extract (bf : BitField) : composeBf (extractKey bf) (extractSpecials bf) = bf := by
  apply BitVec.eq_of_getLsbD_eq
  intro i hi
  interval_cases i <;>
    simp only [extractKey, extractSpecials, extractSign, composeBf, BitVec.getLsbD_extractLsb',
      BitVec.getLsbD_cast, BitVec.getLsbD_append] <;> simp

@[simp] theorem extractBf_composeFrame (bf : BitField) (r : RawDigits) :
    extractBf (composeFrame bf r) = bf := by
  apply BitVec.eq_of_getLsbD_eq
  intro i hi
  interval_cases i <;>
    simp only [extractBf, composeFrame, BitVec.getLsbD_extractLsb', BitVec.getLsbD_cast, BitVec.getLsbD_append] <;>
    simp

@[simp] theorem extractDig_composeFrame (bf : BitField) (r : RawDigits) :
    extractDig (composeFrame bf r) = r := rfl

/-- No bit of a frame is lost in its BitField and its digit bytes. -/
@[simp] theorem composeFrame_extract (f : Frame) : composeFrame (extractBf f) (extractDig f) = f := by
  obtain ⟨f0, f1, f2, f3, f4, f5, f6, f7⟩ := f
  simp only [composeFrame, extractDig, Frame.mk.injEq, and_true]
  refine ⟨?_, ?_, ?_⟩ <;>
  · apply BitVec.eq_of_getLsbD_eq
    intro i hi
    interval_cases i <;>
      simp only [extractBf, BitVec.getLsbD_extractLsb', BitVec.getLsbD_cast, BitVec.getLsbD_append] <;> simp

@[simp] theorem frameOfBytes_frameBytes (f : Frame) : frameOfBytes (frameBytes f) = some f := rfl

@[simp] theorem frameBytes_length (f : Frame) : (frameBytes f).length = 8 := rfl

theorem frameOfBytes_eq_some {bytes : List Byte} {f : Frame} :
    frameOfBytes bytes = some f ↔ bytes = frameBytes f := by
  constructor
  · intro h
    unfold frameOfBytes at h
    split at h
    · cases h
      rfl
    · cases h
  · rintro rfl
    rfl

/-- A read is a frame exactly when it has 8 bytes. -/
theorem frameOfBytes_isSome {bytes : List Byte} : (frameOfBytes bytes).isSome ↔ bytes.length = 8 := by
  constructor
  · intro h
    obtain ⟨f, hf⟩ := Option.isSome_iff_exists.mp h
    rw [frameOfBytes_eq_some.mp hf, frameBytes_length]
  · intro h
    match bytes, h with
    | [_, _, _, _, _, _, _, _], _ => rfl

@[simp] theorem digitValue_digitByte (d : Fin 10) : digitValue (digitByte d) = some d := by
  revert d
  decide

theorem digitValue_eq_some {x : Byte} {d : Fin 10} : digitValue x = some d ↔ x = digitByte d := by
  constructor
  · intro h
    unfold digitValue at h
    split at h
    · rename_i hx
      cases h
      apply BitVec.eq_of_toNat_eq
      simp only [digitByte, BitVec.toNat_ofNat]
      omega
    · cases h
  · rintro rfl
    exact digitValue_digitByte d

@[simp] theorem checkDig_digitBytes (d : Digits) : checkDig (digitBytes d) = some d := by
  simp [checkDig, digitBytes]

/-- The digit check succeeds exactly on the bytes of five digits, and answers those digits. -/
theorem checkDig_eq_some {r : RawDigits} {d : Digits} : checkDig r = some d ↔ r = digitBytes d := by
  constructor
  · intro h
    obtain ⟨b0, b1, b2, b3, b4⟩ := r
    unfold checkDig at h
    split at h
    · rename_i h0 h1 h2 h3 h4
      cases h
      simp only [digitValue_eq_some] at h0 h1 h2 h3 h4
      simp only [digitBytes, h0, h1, h2, h3, h4]
    · cases h
  · rintro rfl
    exact checkDig_digitBytes d

/-- Every magnitude is at most MAG_MAX = 99999 (40_bitfield_extract.md R103). -/
theorem magnitude_le (d : Digits) : magnitude d ≤ 99999 := by
  obtain ⟨⟨d0, h0⟩, ⟨d1, h1⟩, ⟨d2, h2⟩, ⟨d3, h3⟩, ⟨d4, h4⟩⟩ := d
  simp only [magnitude]
  omega

/-- The 17-bit field holds the magnitude exactly. -/
@[simp] theorem parseMag_toNat (d : Digits) : (parseMag d).toNat = magnitude d := by
  have h := magnitude_le d
  simp only [parseMag, BitVec.toNat_ofNat]
  omega

/-- The DIGITS field as a number: F[3] lowest (30_encoding.md R83). -/
theorem digitsField_toNat (r : RawDigits) :
    (digitsField r).toNat =
      r.b0.toNat + 2 ^ 8 * r.b1.toNat + 2 ^ 16 * r.b2.toNat + 2 ^ 24 * r.b3.toNat + 2 ^ 32 * r.b4.toNat := by
  obtain ⟨b0, b1, b2, b3, b4⟩ := r
  simp only [digitsField, BitVec.toNat_cast, BitVec.toNat_append]
  have h0 := b0.isLt
  have h1 := b1.isLt
  have h2 := b2.isLt
  have h3 := b3.isLt
  rw [← Nat.shiftLeft_add_eq_or_of_lt (by omega), ← Nat.shiftLeft_add_eq_or_of_lt (by omega),
    ← Nat.shiftLeft_add_eq_or_of_lt (by omega), ← Nat.shiftLeft_add_eq_or_of_lt (by omega)]
  omega

end Sys2Proof.Machine
end

