-- ==== Sys2Proof/Laws/ModeTable.lean ====
section
/-!
SUPPORT. The ROM's laws: what a well-formed ModeTable gives, and what the lookup answers.
-/

namespace Sys2Proof.Machine

theorem Mode.mem_all (m : Mode) : m ∈ Mode.all := by
  cases m <;> decide

@[simp] theorem ofKeys_entry (key : Mode → ModeKey) (m : Mode) :
    (ModeTable.ofKeys key).entry m = entryOf key m := by
  cases m <;> rfl

theorem ModeTable.wf_iff {t : ModeTable} : t.wf = true ↔ t.keysDistinct = true ∧ t.contentsOk = true := by
  simp [ModeTable.wf]

theorem contentsOk_entry {t : ModeTable} (h : t.contentsOk = true) (m : Mode) :
    (t.entry m).baseUnit = baseUnitOf m ∧ (t.entry m).divExp = divExpOf m := by
  have := List.all_eq_true.mp h m (Mode.mem_all m)
  simpa using this

@[simp] theorem contentsOk_ofKeys (key : Mode → ModeKey) : (ModeTable.ofKeys key).contentsOk = true := by
  simp [ModeTable.contentsOk, entryOf]

theorem keysDistinct_inj {t : ModeTable} (h : t.keysDistinct = true) {m n : Mode}
    (hk : (t.entry m).key = (t.entry n).key) : m = n := by
  have hnd : (Mode.all.map fun m => (t.entry m).key).Nodup := of_decide_eq_true h
  exact List.inj_on_of_nodup_map hnd (Mode.mem_all m) (Mode.mem_all n) hk

theorem lookup_eq_some_key {t : ModeTable} {k : ModeKey} {m : Mode} (h : t.lookup k = some m) :
    (t.entry m).key = k := by
  have := List.find?_some h
  simpa using this

/-- With distinct keys the lookup finds mode m exactly on its key (41_mode_lookup.md R120). -/
theorem lookup_eq_some {t : ModeTable} (h : t.keysDistinct = true) {k : ModeKey} {m : Mode} :
    t.lookup k = some m ↔ (t.entry m).key = k := by
  refine ⟨lookup_eq_some_key, fun hk => ?_⟩
  cases hl : t.lookup k with
  | none =>
    have := List.find?_eq_none.mp hl m (Mode.mem_all m)
    simp [hk] at this
  | some n => rw [keysDistinct_inj h ((lookup_eq_some_key hl).trans hk.symm)]

/-- On a well-formed ROM the lookup of a mode's own key finds that mode. -/
theorem lookup_entry {t : ModeTable} (h : t.wf = true) (m : Mode) : t.lookup (t.entry m).key = some m :=
  (lookup_eq_some (ModeTable.wf_iff.mp h).1).mpr rfl

/-- The lookup answers none exactly on a key that no entry holds. -/
theorem lookup_eq_none {t : ModeTable} {k : ModeKey} :
    t.lookup k = none ↔ ∀ m, (t.entry m).key ≠ k := by
  constructor
  · intro h m
    simpa using List.find?_eq_none.mp h m (Mode.mem_all m)
  · intro h
    exact List.find?_eq_none.mpr fun m _ => by simpa using h m

/-- The 15 keys of the machine are pairwise distinct, whatever the open choice (00_scope.md R7). -/
theorem config_keys_distinct : modeTable.keysDistinct = true := by
  have key_eq : ∀ m, (modeTable.entry m).key = Config.key m := fun m => by simp [modeTable, entryOf]
  simp only [ModeTable.keysDistinct, key_eq, decide_eq_true_eq]
  by_cases hn : (Mode.all.map Config.keyChoice).Nodup
  · have : Config.key = Config.keyChoice := by
      funext m
      simp [Config.key, hn]
    rw [this]
    exact hn
  · have : Config.key = fun m => BitVec.ofNat 9 m.ctorIdx := by
      funext m
      simp [Config.key, hn]
    rw [this]
    decide

theorem modeTable_wf : modeTable.wf = true :=
  ModeTable.wf_iff.mpr ⟨config_keys_distinct, contentsOk_ofKeys _⟩

end Sys2Proof.Machine
end

