-- ==== Sys2Proof/Laws/PerInstr.lean ====
section
/-!
SUPPORT. Statements for all instructions, one lemma for each constructor. EncodeLength: every instruction is one
8-byte frame (30_encoding.md R70).
-/

namespace Sys2Proof.Laws.EncodeLength

/-- The bytes of an instruction are 8, whatever the ROM. -/
def Statement (i : Instr) : Prop := ∀ t : Machine.ModeTable, (encode t i).length = 8

theorem vac (b : Specials) (d : Digits) : Statement (.vac b d) := fun _ => rfl
theorem vacMadc (b : Specials) (d : Digits) : Statement (.vacMadc b d) := fun _ => rfl
theorem pct (b : Specials) (d : Digits) : Statement (.pct b d) := fun _ => rfl
theorem pctNf (b : Specials) (d : Digits) : Statement (.pctNf b d) := fun _ => rfl
theorem pctUf (b : Specials) (d : Digits) : Statement (.pctUf b d) := fun _ => rfl
theorem mvdc (b : Specials) (d : Digits) : Statement (.mvdc b d) := fun _ => rfl
theorem mvdcAac (b : Specials) (d : Digits) : Statement (.mvdcAac b d) := fun _ => rfl
theorem nf (b : Specials) (d : Digits) : Statement (.nf b d) := fun _ => rfl
theorem nfUf (b : Specials) (d : Digits) : Statement (.nfUf b d) := fun _ => rfl
theorem vdc (b : Specials) (d : Digits) : Statement (.vdc b d) := fun _ => rfl
theorem vdcMaacdc (b : Specials) (d : Digits) : Statement (.vdcMaacdc b d) := fun _ => rfl
theorem ohm (b : Specials) (d : Digits) : Statement (.ohm b d) := fun _ => rfl
theorem ohmK (b : Specials) (d : Digits) : Statement (.ohmK b d) := fun _ => rfl
theorem ohmM (b : Specials) (d : Digits) : Statement (.ohmM b d) := fun _ => rfl
theorem mvacdc (b : Specials) (d : Digits) : Statement (.mvacdc b d) := fun _ => rfl
theorem uaac (b : Specials) (d : Digits) : Statement (.uaac b d) := fun _ => rfl
theorem dbm (b : Specials) (d : Digits) : Statement (.dbm b d) := fun _ => rfl
theorem dbmMaac (b : Specials) (d : Digits) : Statement (.dbmMaac b d) := fun _ => rfl
theorem vf (b : Specials) (d : Digits) : Statement (.vf b d) := fun _ => rfl
theorem mvac (b : Specials) (d : Digits) : Statement (.mvac b d) := fun _ => rfl
theorem mvacAacdc (b : Specials) (d : Digits) : Statement (.mvacAacdc b d) := fun _ => rfl
theorem uadc (b : Specials) (d : Digits) : Statement (.uadc b d) := fun _ => rfl
theorem adc (b : Specials) (d : Digits) : Statement (.adc b d) := fun _ => rfl
theorem hz (b : Specials) (d : Digits) : Statement (.hz b d) := fun _ => rfl
theorem uaacdc (b : Specials) (d : Digits) : Statement (.uaacdc b d) := fun _ => rfl
theorem unknown (k : ModeKey) (b : Specials) (d : Digits) : Statement (.unknown k b d) := fun _ => rfl
theorem badDigit (k : ModeKey) (b : Specials) (r : RawDigits) : Statement (.badDigit k b r) := fun _ => rfl
theorem raw (bf : BitField) (r : RawDigits) : Statement (.raw bf r) := fun _ => rfl

end Sys2Proof.Laws.EncodeLength
end

