-- ==== Sys2Proof/Laws/Scaler.lean ====
section
/-!
SUPPORT. The scaler's laws: the chain written out, what INIT gives on a well-formed ROM, and each rewrite rule on
the units it does not test.
-/

namespace Sys2Proof.Machine

/-- The chain, rule by rule. -/
theorem rewriteChain_eq (b : Specials) (w : Work) :
    rewriteChain b w =
      rwUaac b (rwDbmSign b (rwVacAlt b (rwMvacAlt b (rwVdcAlt b (rwMvdcAlt b (rwVac b (rwNf b (rwPct b
        (rwOhm b w))))))))) := by
  simp only [rewriteChain, rewriteRules, List.foldl_cons, List.foldl_nil]

/-- INIT on a ROM with the contents of 30_encoding.md R77. -/
theorem scaleInit_entry {t : ModeTable} (h : t.contentsOk = true) (m : Mode) :
    scaleInit (t.entry m) = { unit := baseUnitOf m, exp := -((divExpOf m).toNat : Int), fnn := false } := by
  obtain ⟨hu, hd⟩ := contentsOk_entry h m
  simp [scaleInit, hu, hd]

theorem rwOhm_other {b : Specials} {w : Work} (h : w.unit ≠ .ohm) : rwOhm b w = w := by simp [rwOhm, h]

theorem rwPct_other {b : Specials} {w : Work} (h : w.unit ≠ .percent) : rwPct b w = w := by simp [rwPct, h]

theorem rwNf_other {b : Specials} {w : Work} (h : w.unit ≠ .nf) : rwNf b w = w := by simp [rwNf, h]

theorem rwVac_other {b : Specials} {w : Work} (h : w.unit ≠ .vAc) : rwVac b w = w := by simp [rwVac, h]

theorem rwMvdcAlt_other {b : Specials} {w : Work} (h : w.unit ≠ .mvDc) : rwMvdcAlt b w = w := by
  simp [rwMvdcAlt, h]

theorem rwVdcAlt_other {b : Specials} {w : Work} (h : w.unit ≠ .vDc) : rwVdcAlt b w = w := by
  simp [rwVdcAlt, h]

theorem rwMvacAlt_other {b : Specials} {w : Work} (h : w.unit ≠ .mvAc) : rwMvacAlt b w = w := by
  simp [rwMvacAlt, h]

theorem rwVacAlt_other {b : Specials} {w : Work} (h : w.unit ≠ .vAc) : rwVacAlt b w = w := by
  simp [rwVacAlt, h]

theorem rwDbmSign_other {b : Specials} {w : Work} (h : w.unit ≠ .dbm) : rwDbmSign b w = w := by
  simp [rwDbmSign, h]

theorem rwUaac_other {b : Specials} {w : Work} (h : w.unit ≠ .uaAc) : rwUaac b w = w := by simp [rwUaac, h]

@[simp] theorem rewrite_unit (w : Work) (u : UnitLabel) (de : Int) : (w.rewrite u de).unit = u := rfl
@[simp] theorem rewrite_exp (w : Work) (u : UnitLabel) (de : Int) : (w.rewrite u de).exp = w.exp + de := rfl
@[simp] theorem rewrite_fnn (w : Work) (u : UnitLabel) (de : Int) : (w.rewrite u de).fnn = w.fnn := rfl
@[simp] theorem forceNonNegative_unit (w : Work) : w.forceNonNegative.unit = w.unit := rfl
@[simp] theorem forceNonNegative_exp (w : Work) : w.forceNonNegative.exp = w.exp := rfl
@[simp] theorem forceNonNegative_fnn (w : Work) : w.forceNonNegative.fnn = true := rfl
@[simp] theorem mul10_unit (b : Specials) (w : Work) : (mul10 b w).unit = w.unit := by
  unfold mul10
  split <;> rfl
@[simp] theorem mul10_fnn (b : Specials) (w : Work) : (mul10 b w).fnn = w.fnn := by
  unfold mul10
  split <;> rfl
theorem mul10_exp (b : Specials) (w : Work) : (mul10 b w).exp = w.exp + if b.x10 then 1 else 0 := by
  unfold mul10
  split <;> simp_all

end Sys2Proof.Machine
end

