-- ==== Sys2Proof/Laws/State.lean ====
section
/-!
SUPPORT. One lemma for each field of State after each update, so that no later proof unfolds a record update.
-/

namespace Sys2Proof.Machine

@[simp] theorem emit_fsm (s : State) (r : Record) : (s.emit r).fsm = s.fsm := rfl
@[simp] theorem emit_cfgRaw (s : State) (r : Record) : (s.emit r).cfgRaw = s.cfgRaw := rfl
@[simp] theorem emit_timeoutCur (s : State) (r : Record) : (s.emit r).timeoutCur = s.timeoutCur := rfl
@[simp] theorem emit_syncRetry (s : State) (r : Record) : (s.emit r).syncRetry = s.syncRetry := rfl
@[simp] theorem emit_resyncCount (s : State) (r : Record) : (s.emit r).resyncCount = s.resyncCount := rfl
@[simp] theorem emit_lastExc (s : State) (r : Record) : (s.emit r).lastExc = s.lastExc := rfl
@[simp] theorem emit_failCmd (s : State) (r : Record) : (s.emit r).failCmd = s.failCmd := rfl
@[simp] theorem emit_rom (s : State) (r : Record) : (s.emit r).rom = s.rom := rfl
@[simp] theorem emit_inReset (s : State) (r : Record) : (s.emit r).inReset = s.inReset := rfl
@[simp] theorem emit_params (s : State) (r : Record) : (s.emit r).params = s.params := rfl
@[simp] theorem emit_inputs (s : State) (r : Record) : (s.emit r).inputs = s.inputs := rfl
@[simp] theorem emit_repeating (s : State) (r : Record) : (s.emit r).repeating = s.repeating := rfl
@[simp] theorem emit_commands (s : State) (r : Record) : (s.emit r).commands = s.commands := rfl
@[simp] theorem emit_records (s : State) (r : Record) : (s.emit r).records = s.records ++ [r] := rfl

@[simp] theorem issue_fsm (s : State) (c : Command) : (s.issue c).fsm = s.fsm := rfl
@[simp] theorem issue_cfgRaw (s : State) (c : Command) : (s.issue c).cfgRaw = s.cfgRaw := rfl
@[simp] theorem issue_timeoutCur (s : State) (c : Command) : (s.issue c).timeoutCur = s.timeoutCur := rfl
@[simp] theorem issue_syncRetry (s : State) (c : Command) : (s.issue c).syncRetry = s.syncRetry := rfl
@[simp] theorem issue_resyncCount (s : State) (c : Command) : (s.issue c).resyncCount = s.resyncCount := rfl
@[simp] theorem issue_lastExc (s : State) (c : Command) : (s.issue c).lastExc = s.lastExc := rfl
@[simp] theorem issue_failCmd (s : State) (c : Command) : (s.issue c).failCmd = s.failCmd := rfl
@[simp] theorem issue_rom (s : State) (c : Command) : (s.issue c).rom = s.rom := rfl
@[simp] theorem issue_inReset (s : State) (c : Command) : (s.issue c).inReset = s.inReset := rfl
@[simp] theorem issue_params (s : State) (c : Command) : (s.issue c).params = s.params := rfl
@[simp] theorem issue_inputs (s : State) (c : Command) : (s.issue c).inputs = s.inputs := rfl
@[simp] theorem issue_repeating (s : State) (c : Command) : (s.issue c).repeating = s.repeating := rfl
@[simp] theorem issue_commands (s : State) (c : Command) : (s.issue c).commands = s.commands ++ [c] := rfl
@[simp] theorem issue_records (s : State) (c : Command) : (s.issue c).records = s.records := rfl

@[simp] theorem enter_fsm (s : State) (t : FsmState) : (s.enter t).fsm = t := rfl
@[simp] theorem enter_cfgRaw (s : State) (t : FsmState) : (s.enter t).cfgRaw = s.cfgRaw := rfl
@[simp] theorem enter_timeoutCur (s : State) (t : FsmState) : (s.enter t).timeoutCur = s.timeoutCur := rfl
@[simp] theorem enter_syncRetry (s : State) (t : FsmState) : (s.enter t).syncRetry = s.syncRetry := rfl
@[simp] theorem enter_resyncCount (s : State) (t : FsmState) : (s.enter t).resyncCount = s.resyncCount := rfl
@[simp] theorem enter_lastExc (s : State) (t : FsmState) : (s.enter t).lastExc = s.lastExc := rfl
@[simp] theorem enter_failCmd (s : State) (t : FsmState) : (s.enter t).failCmd = s.failCmd := rfl
@[simp] theorem enter_rom (s : State) (t : FsmState) : (s.enter t).rom = s.rom := rfl
@[simp] theorem enter_inReset (s : State) (t : FsmState) : (s.enter t).inReset = s.inReset := rfl
@[simp] theorem enter_params (s : State) (t : FsmState) : (s.enter t).params = s.params := rfl
@[simp] theorem enter_inputs (s : State) (t : FsmState) : (s.enter t).inputs = s.inputs := rfl
@[simp] theorem enter_repeating (s : State) (t : FsmState) : (s.enter t).repeating = s.repeating := rfl
@[simp] theorem enter_commands (s : State) (t : FsmState) :
    (s.enter t).commands = s.commands ++ (commandOf s.params t).toList := rfl
@[simp] theorem enter_records (s : State) (t : FsmState) : (s.enter t).records = s.records := rfl

@[simp] theorem enterSync_fsm (s : State) : (s.enterSync).fsm = .setShort := rfl
@[simp] theorem enterSync_cfgRaw (s : State) : (s.enterSync).cfgRaw = s.cfgRaw := rfl
@[simp] theorem enterSync_timeoutCur (s : State) : (s.enterSync).timeoutCur = s.timeoutCur := rfl
@[simp] theorem enterSync_syncRetry (s : State) : (s.enterSync).syncRetry = 0 := rfl
@[simp] theorem enterSync_resyncCount (s : State) : (s.enterSync).resyncCount = s.resyncCount := rfl
@[simp] theorem enterSync_lastExc (s : State) : (s.enterSync).lastExc = s.lastExc := rfl
@[simp] theorem enterSync_failCmd (s : State) : (s.enterSync).failCmd = s.failCmd := rfl
@[simp] theorem enterSync_rom (s : State) : (s.enterSync).rom = s.rom := rfl
@[simp] theorem enterSync_inReset (s : State) : (s.enterSync).inReset = s.inReset := rfl
@[simp] theorem enterSync_params (s : State) : (s.enterSync).params = s.params := rfl
@[simp] theorem enterSync_inputs (s : State) : (s.enterSync).inputs = s.inputs := rfl
@[simp] theorem enterSync_repeating (s : State) : (s.enterSync).repeating = s.repeating := rfl
@[simp] theorem enterSync_commands (s : State) :
    (s.enterSync).commands = s.commands ++ [.setTimeout s.params.tShort] := rfl
@[simp] theorem enterSync_records (s : State) : (s.enterSync).records = s.records := rfl

@[simp] theorem resetRegisters_fsm (s : State) (rawMode : Bool) : (s.resetRegisters rawMode).fsm = .setShort := rfl
@[simp] theorem resetRegisters_cfgRaw (s : State) (rawMode : Bool) :
    (s.resetRegisters rawMode).cfgRaw = rawMode := rfl
@[simp] theorem resetRegisters_timeoutCur (s : State) (rawMode : Bool) :
    (s.resetRegisters rawMode).timeoutCur = 0 := rfl
@[simp] theorem resetRegisters_syncRetry (s : State) (rawMode : Bool) :
    (s.resetRegisters rawMode).syncRetry = 0 := rfl
@[simp] theorem resetRegisters_resyncCount (s : State) (rawMode : Bool) :
    (s.resetRegisters rawMode).resyncCount = 0 := rfl
@[simp] theorem resetRegisters_lastExc (s : State) (rawMode : Bool) :
    (s.resetRegisters rawMode).lastExc = .none := rfl
@[simp] theorem resetRegisters_failCmd (s : State) (rawMode : Bool) :
    (s.resetRegisters rawMode).failCmd = .none := rfl
@[simp] theorem resetRegisters_rom (s : State) (rawMode : Bool) : (s.resetRegisters rawMode).rom = s.rom := rfl
@[simp] theorem resetRegisters_inReset (s : State) (rawMode : Bool) :
    (s.resetRegisters rawMode).inReset = s.inReset := rfl
@[simp] theorem resetRegisters_params (s : State) (rawMode : Bool) :
    (s.resetRegisters rawMode).params = s.params := rfl
@[simp] theorem resetRegisters_inputs (s : State) (rawMode : Bool) :
    (s.resetRegisters rawMode).inputs = s.inputs := rfl
@[simp] theorem resetRegisters_repeating (s : State) (rawMode : Bool) :
    (s.resetRegisters rawMode).repeating = s.repeating := rfl
@[simp] theorem resetRegisters_commands (s : State) (rawMode : Bool) :
    (s.resetRegisters rawMode).commands = s.commands := rfl
@[simp] theorem resetRegisters_records (s : State) (rawMode : Bool) :
    (s.resetRegisters rawMode).records = s.records := rfl

@[simp] theorem holdReset_fsm (s : State) (rawMode : Bool) : (s.holdReset rawMode).fsm = .setShort := rfl
@[simp] theorem holdReset_cfgRaw (s : State) (rawMode : Bool) : (s.holdReset rawMode).cfgRaw = rawMode := rfl
@[simp] theorem holdReset_timeoutCur (s : State) (rawMode : Bool) : (s.holdReset rawMode).timeoutCur = 0 := rfl
@[simp] theorem holdReset_syncRetry (s : State) (rawMode : Bool) : (s.holdReset rawMode).syncRetry = 0 := rfl
@[simp] theorem holdReset_resyncCount (s : State) (rawMode : Bool) : (s.holdReset rawMode).resyncCount = 0 := rfl
@[simp] theorem holdReset_lastExc (s : State) (rawMode : Bool) : (s.holdReset rawMode).lastExc = .none := rfl
@[simp] theorem holdReset_failCmd (s : State) (rawMode : Bool) : (s.holdReset rawMode).failCmd = .none := rfl
@[simp] theorem holdReset_rom (s : State) (rawMode : Bool) : (s.holdReset rawMode).rom = s.rom := rfl
@[simp] theorem holdReset_inReset (s : State) (rawMode : Bool) : (s.holdReset rawMode).inReset = true := rfl
@[simp] theorem holdReset_params (s : State) (rawMode : Bool) : (s.holdReset rawMode).params = s.params := rfl
@[simp] theorem holdReset_inputs (s : State) (rawMode : Bool) : (s.holdReset rawMode).inputs = s.inputs := rfl
@[simp] theorem holdReset_repeating (s : State) (rawMode : Bool) :
    (s.holdReset rawMode).repeating = s.repeating := rfl
@[simp] theorem holdReset_commands (s : State) (rawMode : Bool) :
    (s.holdReset rawMode).commands = s.commands := rfl
@[simp] theorem holdReset_records (s : State) (rawMode : Bool) : (s.holdReset rawMode).records = s.records := rfl

@[simp] theorem leaveReset_fsm (s : State) (rawMode : Bool) : (s.leaveReset rawMode).fsm = .setShort := rfl
@[simp] theorem leaveReset_cfgRaw (s : State) (rawMode : Bool) : (s.leaveReset rawMode).cfgRaw = rawMode := rfl
@[simp] theorem leaveReset_timeoutCur (s : State) (rawMode : Bool) : (s.leaveReset rawMode).timeoutCur = 0 := rfl
@[simp] theorem leaveReset_syncRetry (s : State) (rawMode : Bool) : (s.leaveReset rawMode).syncRetry = 0 := rfl
@[simp] theorem leaveReset_resyncCount (s : State) (rawMode : Bool) : (s.leaveReset rawMode).resyncCount = 0 := rfl
@[simp] theorem leaveReset_lastExc (s : State) (rawMode : Bool) : (s.leaveReset rawMode).lastExc = .none := rfl
@[simp] theorem leaveReset_failCmd (s : State) (rawMode : Bool) : (s.leaveReset rawMode).failCmd = .none := rfl
@[simp] theorem leaveReset_rom (s : State) (rawMode : Bool) : (s.leaveReset rawMode).rom = s.rom := rfl
@[simp] theorem leaveReset_inReset (s : State) (rawMode : Bool) : (s.leaveReset rawMode).inReset = false := rfl
@[simp] theorem leaveReset_params (s : State) (rawMode : Bool) : (s.leaveReset rawMode).params = s.params := rfl
@[simp] theorem leaveReset_inputs (s : State) (rawMode : Bool) : (s.leaveReset rawMode).inputs = s.inputs := rfl
@[simp] theorem leaveReset_repeating (s : State) (rawMode : Bool) :
    (s.leaveReset rawMode).repeating = s.repeating := rfl
@[simp] theorem leaveReset_commands (s : State) (rawMode : Bool) :
    (s.leaveReset rawMode).commands = s.commands ++ [.setTimeout s.params.tShort] := rfl
@[simp] theorem leaveReset_records (s : State) (rawMode : Bool) : (s.leaveReset rawMode).records = s.records := rfl

@[simp] theorem afterRecord_fsm (s : State) (r : Record) : (s.afterRecord r).fsm = .run := rfl
@[simp] theorem afterRecord_cfgRaw (s : State) (r : Record) : (s.afterRecord r).cfgRaw = s.cfgRaw := rfl
@[simp] theorem afterRecord_timeoutCur (s : State) (r : Record) :
    (s.afterRecord r).timeoutCur = s.timeoutCur := rfl
@[simp] theorem afterRecord_syncRetry (s : State) (r : Record) : (s.afterRecord r).syncRetry = s.syncRetry := rfl
@[simp] theorem afterRecord_resyncCount (s : State) (r : Record) :
    (s.afterRecord r).resyncCount = s.resyncCount := rfl
@[simp] theorem afterRecord_lastExc (s : State) (r : Record) : (s.afterRecord r).lastExc = s.lastExc := rfl
@[simp] theorem afterRecord_failCmd (s : State) (r : Record) : (s.afterRecord r).failCmd = s.failCmd := rfl
@[simp] theorem afterRecord_rom (s : State) (r : Record) : (s.afterRecord r).rom = s.rom := rfl
@[simp] theorem afterRecord_inReset (s : State) (r : Record) : (s.afterRecord r).inReset = s.inReset := rfl
@[simp] theorem afterRecord_params (s : State) (r : Record) : (s.afterRecord r).params = s.params := rfl
@[simp] theorem afterRecord_inputs (s : State) (r : Record) : (s.afterRecord r).inputs = s.inputs := rfl
@[simp] theorem afterRecord_repeating (s : State) (r : Record) : (s.afterRecord r).repeating = s.repeating := rfl
@[simp] theorem afterRecord_commands (s : State) (r : Record) :
    (s.afterRecord r).commands = s.commands ++ [.read 8] := rfl
@[simp] theorem afterRecord_records (s : State) (r : Record) : (s.afterRecord r).records = s.records ++ [r] := rfl

@[simp] theorem measure_fsm (s : State) (m : Mode) (b : Specials) (d : Digits) :
    (s.measure m b d).fsm = .run := rfl
@[simp] theorem measure_cfgRaw (s : State) (m : Mode) (b : Specials) (d : Digits) :
    (s.measure m b d).cfgRaw = s.cfgRaw := rfl
@[simp] theorem measure_timeoutCur (s : State) (m : Mode) (b : Specials) (d : Digits) :
    (s.measure m b d).timeoutCur = s.timeoutCur := rfl
@[simp] theorem measure_syncRetry (s : State) (m : Mode) (b : Specials) (d : Digits) :
    (s.measure m b d).syncRetry = s.syncRetry := rfl
@[simp] theorem measure_resyncCount (s : State) (m : Mode) (b : Specials) (d : Digits) :
    (s.measure m b d).resyncCount = s.resyncCount := rfl
@[simp] theorem measure_lastExc (s : State) (m : Mode) (b : Specials) (d : Digits) :
    (s.measure m b d).lastExc = s.lastExc := rfl
@[simp] theorem measure_failCmd (s : State) (m : Mode) (b : Specials) (d : Digits) :
    (s.measure m b d).failCmd = s.failCmd := rfl
@[simp] theorem measure_rom (s : State) (m : Mode) (b : Specials) (d : Digits) :
    (s.measure m b d).rom = s.rom := rfl
@[simp] theorem measure_inReset (s : State) (m : Mode) (b : Specials) (d : Digits) :
    (s.measure m b d).inReset = s.inReset := rfl
@[simp] theorem measure_params (s : State) (m : Mode) (b : Specials) (d : Digits) :
    (s.measure m b d).params = s.params := rfl
@[simp] theorem measure_inputs (s : State) (m : Mode) (b : Specials) (d : Digits) :
    (s.measure m b d).inputs = s.inputs := rfl
@[simp] theorem measure_repeating (s : State) (m : Mode) (b : Specials) (d : Digits) :
    (s.measure m b d).repeating = s.repeating := rfl
@[simp] theorem measure_commands (s : State) (m : Mode) (b : Specials) (d : Digits) :
    (s.measure m b d).commands = s.commands ++ [.read 8] := rfl
@[simp] theorem measure_records (s : State) (m : Mode) (b : Specials) (d : Digits) :
    (s.measure m b d).records = s.records ++ [measurementRecord b d (scale (s.rom.entry m) b)] := rfl

@[simp] theorem tShortAck_fsm (s : State) : (s.tShortAck).fsm = .junk := rfl
@[simp] theorem tShortAck_cfgRaw (s : State) : (s.tShortAck).cfgRaw = s.cfgRaw := rfl
@[simp] theorem tShortAck_timeoutCur (s : State) : (s.tShortAck).timeoutCur = s.params.tShort := rfl
@[simp] theorem tShortAck_syncRetry (s : State) : (s.tShortAck).syncRetry = s.syncRetry := rfl
@[simp] theorem tShortAck_resyncCount (s : State) : (s.tShortAck).resyncCount = s.resyncCount := rfl
@[simp] theorem tShortAck_lastExc (s : State) : (s.tShortAck).lastExc = s.lastExc := rfl
@[simp] theorem tShortAck_failCmd (s : State) : (s.tShortAck).failCmd = s.failCmd := rfl
@[simp] theorem tShortAck_rom (s : State) : (s.tShortAck).rom = s.rom := rfl
@[simp] theorem tShortAck_inReset (s : State) : (s.tShortAck).inReset = s.inReset := rfl
@[simp] theorem tShortAck_params (s : State) : (s.tShortAck).params = s.params := rfl
@[simp] theorem tShortAck_inputs (s : State) : (s.tShortAck).inputs = s.inputs := rfl
@[simp] theorem tShortAck_repeating (s : State) : (s.tShortAck).repeating = s.repeating := rfl
@[simp] theorem tShortAck_commands (s : State) : (s.tShortAck).commands = s.commands ++ [.read 16] := rfl
@[simp] theorem tShortAck_records (s : State) : (s.tShortAck).records = s.records := rfl

@[simp] theorem junkDone_fsm (s : State) : (s.junkDone).fsm = .probe := rfl
@[simp] theorem junkDone_cfgRaw (s : State) : (s.junkDone).cfgRaw = s.cfgRaw := rfl
@[simp] theorem junkDone_timeoutCur (s : State) : (s.junkDone).timeoutCur = s.timeoutCur := rfl
@[simp] theorem junkDone_syncRetry (s : State) : (s.junkDone).syncRetry = s.syncRetry := rfl
@[simp] theorem junkDone_resyncCount (s : State) : (s.junkDone).resyncCount = s.resyncCount := rfl
@[simp] theorem junkDone_lastExc (s : State) : (s.junkDone).lastExc = s.lastExc := rfl
@[simp] theorem junkDone_failCmd (s : State) : (s.junkDone).failCmd = s.failCmd := rfl
@[simp] theorem junkDone_rom (s : State) : (s.junkDone).rom = s.rom := rfl
@[simp] theorem junkDone_inReset (s : State) : (s.junkDone).inReset = s.inReset := rfl
@[simp] theorem junkDone_params (s : State) : (s.junkDone).params = s.params := rfl
@[simp] theorem junkDone_inputs (s : State) : (s.junkDone).inputs = s.inputs := rfl
@[simp] theorem junkDone_repeating (s : State) : (s.junkDone).repeating = s.repeating := rfl
@[simp] theorem junkDone_commands (s : State) : (s.junkDone).commands = s.commands ++ [.read 8] := rfl
@[simp] theorem junkDone_records (s : State) : (s.junkDone).records = s.records := rfl

@[simp] theorem probeShort_fsm (s : State) : (s.probeShort).fsm = .probe := rfl
@[simp] theorem probeShort_cfgRaw (s : State) : (s.probeShort).cfgRaw = s.cfgRaw := rfl
@[simp] theorem probeShort_timeoutCur (s : State) : (s.probeShort).timeoutCur = s.timeoutCur := rfl
@[simp] theorem probeShort_syncRetry (s : State) : (s.probeShort).syncRetry = satInc32 s.syncRetry := rfl
@[simp] theorem probeShort_resyncCount (s : State) : (s.probeShort).resyncCount = s.resyncCount := rfl
@[simp] theorem probeShort_lastExc (s : State) : (s.probeShort).lastExc = s.lastExc := rfl
@[simp] theorem probeShort_failCmd (s : State) : (s.probeShort).failCmd = s.failCmd := rfl
@[simp] theorem probeShort_rom (s : State) : (s.probeShort).rom = s.rom := rfl
@[simp] theorem probeShort_inReset (s : State) : (s.probeShort).inReset = s.inReset := rfl
@[simp] theorem probeShort_params (s : State) : (s.probeShort).params = s.params := rfl
@[simp] theorem probeShort_inputs (s : State) : (s.probeShort).inputs = s.inputs := rfl
@[simp] theorem probeShort_repeating (s : State) : (s.probeShort).repeating = s.repeating := rfl
@[simp] theorem probeShort_commands (s : State) : (s.probeShort).commands = s.commands ++ [.read 8] := rfl
@[simp] theorem probeShort_records (s : State) : (s.probeShort).records = s.records := rfl

@[simp] theorem probeFull_fsm (s : State) : (s.probeFull).fsm = .setLong := rfl
@[simp] theorem probeFull_cfgRaw (s : State) : (s.probeFull).cfgRaw = s.cfgRaw := rfl
@[simp] theorem probeFull_timeoutCur (s : State) : (s.probeFull).timeoutCur = s.timeoutCur := rfl
@[simp] theorem probeFull_syncRetry (s : State) : (s.probeFull).syncRetry = s.syncRetry := rfl
@[simp] theorem probeFull_resyncCount (s : State) : (s.probeFull).resyncCount = s.resyncCount := rfl
@[simp] theorem probeFull_lastExc (s : State) : (s.probeFull).lastExc = s.lastExc := rfl
@[simp] theorem probeFull_failCmd (s : State) : (s.probeFull).failCmd = s.failCmd := rfl
@[simp] theorem probeFull_rom (s : State) : (s.probeFull).rom = s.rom := rfl
@[simp] theorem probeFull_inReset (s : State) : (s.probeFull).inReset = s.inReset := rfl
@[simp] theorem probeFull_params (s : State) : (s.probeFull).params = s.params := rfl
@[simp] theorem probeFull_inputs (s : State) : (s.probeFull).inputs = s.inputs := rfl
@[simp] theorem probeFull_repeating (s : State) : (s.probeFull).repeating = s.repeating := rfl
@[simp] theorem probeFull_commands (s : State) :
    (s.probeFull).commands = s.commands ++ [.setTimeout s.params.tLong] := rfl
@[simp] theorem probeFull_records (s : State) : (s.probeFull).records = s.records := rfl

@[simp] theorem tLongAck_fsm (s : State) : (s.tLongAck).fsm = .run := rfl
@[simp] theorem tLongAck_cfgRaw (s : State) : (s.tLongAck).cfgRaw = s.cfgRaw := rfl
@[simp] theorem tLongAck_timeoutCur (s : State) : (s.tLongAck).timeoutCur = s.params.tLong := rfl
@[simp] theorem tLongAck_syncRetry (s : State) : (s.tLongAck).syncRetry = s.syncRetry := rfl
@[simp] theorem tLongAck_resyncCount (s : State) : (s.tLongAck).resyncCount = s.resyncCount := rfl
@[simp] theorem tLongAck_lastExc (s : State) : (s.tLongAck).lastExc = s.lastExc := rfl
@[simp] theorem tLongAck_failCmd (s : State) : (s.tLongAck).failCmd = s.failCmd := rfl
@[simp] theorem tLongAck_rom (s : State) : (s.tLongAck).rom = s.rom := rfl
@[simp] theorem tLongAck_inReset (s : State) : (s.tLongAck).inReset = s.inReset := rfl
@[simp] theorem tLongAck_params (s : State) : (s.tLongAck).params = s.params := rfl
@[simp] theorem tLongAck_inputs (s : State) : (s.tLongAck).inputs = s.inputs := rfl
@[simp] theorem tLongAck_repeating (s : State) : (s.tLongAck).repeating = s.repeating := rfl
@[simp] theorem tLongAck_commands (s : State) : (s.tLongAck).commands = s.commands ++ [.read 8] := rfl
@[simp] theorem tLongAck_records (s : State) : (s.tLongAck).records = s.records := rfl

@[simp] theorem runShort_fsm (s : State) (k : Nat) : (s.runShort k).fsm = .setShort := rfl
@[simp] theorem runShort_cfgRaw (s : State) (k : Nat) : (s.runShort k).cfgRaw = s.cfgRaw := rfl
@[simp] theorem runShort_timeoutCur (s : State) (k : Nat) : (s.runShort k).timeoutCur = s.timeoutCur := rfl
@[simp] theorem runShort_syncRetry (s : State) (k : Nat) : (s.runShort k).syncRetry = 0 := rfl
@[simp] theorem runShort_resyncCount (s : State) (k : Nat) :
    (s.runShort k).resyncCount = satInc32 s.resyncCount := rfl
@[simp] theorem runShort_lastExc (s : State) (k : Nat) : (s.runShort k).lastExc = .synchronizationLoss := rfl
@[simp] theorem runShort_failCmd (s : State) (k : Nat) : (s.runShort k).failCmd = s.failCmd := rfl
@[simp] theorem runShort_rom (s : State) (k : Nat) : (s.runShort k).rom = s.rom := rfl
@[simp] theorem runShort_inReset (s : State) (k : Nat) : (s.runShort k).inReset = s.inReset := rfl
@[simp] theorem runShort_params (s : State) (k : Nat) : (s.runShort k).params = s.params := rfl
@[simp] theorem runShort_inputs (s : State) (k : Nat) : (s.runShort k).inputs = s.inputs := rfl
@[simp] theorem runShort_repeating (s : State) (k : Nat) : (s.runShort k).repeating = s.repeating := rfl
@[simp] theorem runShort_commands (s : State) (k : Nat) :
    (s.runShort k).commands = s.commands ++ [.setTimeout s.params.tShort] := rfl
@[simp] theorem runShort_records (s : State) (k : Nat) : (s.runShort k).records = s.records := rfl

@[simp] theorem streamFail_fsm (s : State) : (s.streamFail).fsm = .failed := rfl
@[simp] theorem streamFail_cfgRaw (s : State) : (s.streamFail).cfgRaw = s.cfgRaw := rfl
@[simp] theorem streamFail_timeoutCur (s : State) : (s.streamFail).timeoutCur = s.timeoutCur := rfl
@[simp] theorem streamFail_syncRetry (s : State) : (s.streamFail).syncRetry = s.syncRetry := rfl
@[simp] theorem streamFail_resyncCount (s : State) : (s.streamFail).resyncCount = s.resyncCount := rfl
@[simp] theorem streamFail_lastExc (s : State) : (s.streamFail).lastExc = .streamFailure := rfl
@[simp] theorem streamFail_failCmd (s : State) : (s.streamFail).failCmd = failCmdOf s.fsm := rfl
@[simp] theorem streamFail_rom (s : State) : (s.streamFail).rom = s.rom := rfl
@[simp] theorem streamFail_inReset (s : State) : (s.streamFail).inReset = s.inReset := rfl
@[simp] theorem streamFail_params (s : State) : (s.streamFail).params = s.params := rfl
@[simp] theorem streamFail_inputs (s : State) : (s.streamFail).inputs = s.inputs := rfl
@[simp] theorem streamFail_repeating (s : State) : (s.streamFail).repeating = s.repeating := rfl
@[simp] theorem streamFail_commands (s : State) :
    (s.streamFail).commands = s.commands := by
  exact List.append_nil _
@[simp] theorem streamFail_records (s : State) : (s.streamFail).records = s.records := rfl

@[simp] theorem cancel_fsm (s : State) : (s.cancel).fsm = .closed := rfl
@[simp] theorem cancel_cfgRaw (s : State) : (s.cancel).cfgRaw = s.cfgRaw := rfl
@[simp] theorem cancel_timeoutCur (s : State) : (s.cancel).timeoutCur = s.timeoutCur := rfl
@[simp] theorem cancel_syncRetry (s : State) : (s.cancel).syncRetry = s.syncRetry := rfl
@[simp] theorem cancel_resyncCount (s : State) : (s.cancel).resyncCount = s.resyncCount := rfl
@[simp] theorem cancel_lastExc (s : State) : (s.cancel).lastExc = .userCancellation := rfl
@[simp] theorem cancel_failCmd (s : State) : (s.cancel).failCmd = s.failCmd := rfl
@[simp] theorem cancel_rom (s : State) : (s.cancel).rom = s.rom := rfl
@[simp] theorem cancel_inReset (s : State) : (s.cancel).inReset = s.inReset := rfl
@[simp] theorem cancel_params (s : State) : (s.cancel).params = s.params := rfl
@[simp] theorem cancel_inputs (s : State) : (s.cancel).inputs = s.inputs := rfl
@[simp] theorem cancel_repeating (s : State) : (s.cancel).repeating = s.repeating := rfl
@[simp] theorem cancel_commands (s : State) :
    (s.cancel).commands = s.commands ++ [.close] := by
  exact List.append_nil _
@[simp] theorem cancel_records (s : State) : (s.cancel).records = s.records := rfl

@[simp] theorem raise_unknownMode_fsm (s : State) (k : ModeKey) (m : Magnitude) :
    (s.raise (.unknownMode k m)).fsm = .run := rfl
@[simp] theorem raise_unknownMode_cfgRaw (s : State) (k : ModeKey) (m : Magnitude) :
    (s.raise (.unknownMode k m)).cfgRaw = s.cfgRaw := rfl
@[simp] theorem raise_unknownMode_timeoutCur (s : State) (k : ModeKey) (m : Magnitude) :
    (s.raise (.unknownMode k m)).timeoutCur = s.timeoutCur := rfl
@[simp] theorem raise_unknownMode_syncRetry (s : State) (k : ModeKey) (m : Magnitude) :
    (s.raise (.unknownMode k m)).syncRetry = s.syncRetry := rfl
@[simp] theorem raise_unknownMode_resyncCount (s : State) (k : ModeKey) (m : Magnitude) :
    (s.raise (.unknownMode k m)).resyncCount = s.resyncCount := rfl
@[simp] theorem raise_unknownMode_lastExc (s : State) (k : ModeKey) (m : Magnitude) :
    (s.raise (.unknownMode k m)).lastExc = .unknownMode := rfl
@[simp] theorem raise_unknownMode_failCmd (s : State) (k : ModeKey) (m : Magnitude) :
    (s.raise (.unknownMode k m)).failCmd = s.failCmd := rfl
@[simp] theorem raise_unknownMode_rom (s : State) (k : ModeKey) (m : Magnitude) :
    (s.raise (.unknownMode k m)).rom = s.rom := rfl
@[simp] theorem raise_unknownMode_inReset (s : State) (k : ModeKey) (m : Magnitude) :
    (s.raise (.unknownMode k m)).inReset = s.inReset := rfl
@[simp] theorem raise_unknownMode_params (s : State) (k : ModeKey) (m : Magnitude) :
    (s.raise (.unknownMode k m)).params = s.params := rfl
@[simp] theorem raise_unknownMode_inputs (s : State) (k : ModeKey) (m : Magnitude) :
    (s.raise (.unknownMode k m)).inputs = s.inputs := rfl
@[simp] theorem raise_unknownMode_repeating (s : State) (k : ModeKey) (m : Magnitude) :
    (s.raise (.unknownMode k m)).repeating = s.repeating := rfl
@[simp] theorem raise_unknownMode_commands (s : State) (k : ModeKey) (m : Magnitude) :
    (s.raise (.unknownMode k m)).commands = s.commands ++ [.read 8] := rfl
@[simp] theorem raise_unknownMode_records (s : State) (k : ModeKey) (m : Magnitude) :
    (s.raise (.unknownMode k m)).records = s.records ++ [.unknownMode k m] := rfl

@[simp] theorem raise_badDigit_fsm (s : State) (k : ModeKey) (g : BitVec 40) :
    (s.raise (.badDigit k g)).fsm = .run := rfl
@[simp] theorem raise_badDigit_cfgRaw (s : State) (k : ModeKey) (g : BitVec 40) :
    (s.raise (.badDigit k g)).cfgRaw = s.cfgRaw := rfl
@[simp] theorem raise_badDigit_timeoutCur (s : State) (k : ModeKey) (g : BitVec 40) :
    (s.raise (.badDigit k g)).timeoutCur = s.timeoutCur := rfl
@[simp] theorem raise_badDigit_syncRetry (s : State) (k : ModeKey) (g : BitVec 40) :
    (s.raise (.badDigit k g)).syncRetry = s.syncRetry := rfl
@[simp] theorem raise_badDigit_resyncCount (s : State) (k : ModeKey) (g : BitVec 40) :
    (s.raise (.badDigit k g)).resyncCount = s.resyncCount := rfl
@[simp] theorem raise_badDigit_lastExc (s : State) (k : ModeKey) (g : BitVec 40) :
    (s.raise (.badDigit k g)).lastExc = .badDigit := rfl
@[simp] theorem raise_badDigit_failCmd (s : State) (k : ModeKey) (g : BitVec 40) :
    (s.raise (.badDigit k g)).failCmd = s.failCmd := rfl
@[simp] theorem raise_badDigit_rom (s : State) (k : ModeKey) (g : BitVec 40) :
    (s.raise (.badDigit k g)).rom = s.rom := rfl
@[simp] theorem raise_badDigit_inReset (s : State) (k : ModeKey) (g : BitVec 40) :
    (s.raise (.badDigit k g)).inReset = s.inReset := rfl
@[simp] theorem raise_badDigit_params (s : State) (k : ModeKey) (g : BitVec 40) :
    (s.raise (.badDigit k g)).params = s.params := rfl
@[simp] theorem raise_badDigit_inputs (s : State) (k : ModeKey) (g : BitVec 40) :
    (s.raise (.badDigit k g)).inputs = s.inputs := rfl
@[simp] theorem raise_badDigit_repeating (s : State) (k : ModeKey) (g : BitVec 40) :
    (s.raise (.badDigit k g)).repeating = s.repeating := rfl
@[simp] theorem raise_badDigit_commands (s : State) (k : ModeKey) (g : BitVec 40) :
    (s.raise (.badDigit k g)).commands = s.commands ++ [.read 8] := rfl
@[simp] theorem raise_badDigit_records (s : State) (k : ModeKey) (g : BitVec 40) :
    (s.raise (.badDigit k g)).records = s.records ++ [.badDigit k g] := rfl

@[simp] theorem withFetchWord_fsm (s : State) (nbits w : Nat) : (s.withFetchWord nbits w).fsm = .run := rfl
@[simp] theorem withFetchWord_cfgRaw (s : State) (nbits w : Nat) :
    (s.withFetchWord nbits w).cfgRaw = s.cfgRaw := rfl
@[simp] theorem withFetchWord_timeoutCur (s : State) (nbits w : Nat) :
    (s.withFetchWord nbits w).timeoutCur = s.timeoutCur := rfl
@[simp] theorem withFetchWord_syncRetry (s : State) (nbits w : Nat) :
    (s.withFetchWord nbits w).syncRetry = s.syncRetry := rfl
@[simp] theorem withFetchWord_resyncCount (s : State) (nbits w : Nat) :
    (s.withFetchWord nbits w).resyncCount = s.resyncCount := rfl
@[simp] theorem withFetchWord_lastExc (s : State) (nbits w : Nat) :
    (s.withFetchWord nbits w).lastExc = s.lastExc := rfl
@[simp] theorem withFetchWord_failCmd (s : State) (nbits w : Nat) :
    (s.withFetchWord nbits w).failCmd = s.failCmd := rfl
@[simp] theorem withFetchWord_rom (s : State) (nbits w : Nat) : (s.withFetchWord nbits w).rom = s.rom := rfl
@[simp] theorem withFetchWord_inReset (s : State) (nbits w : Nat) :
    (s.withFetchWord nbits w).inReset = false := rfl
@[simp] theorem withFetchWord_params (s : State) (nbits w : Nat) :
    (s.withFetchWord nbits w).params = s.params := rfl
@[simp] theorem withFetchWord_inputs (s : State) (nbits w : Nat) :
    (s.withFetchWord nbits w).inputs = Input.respond (.data (wordBytes nbits w)) :: s.inputs := rfl
@[simp] theorem withFetchWord_repeating (s : State) (nbits w : Nat) :
    (s.withFetchWord nbits w).repeating = s.repeating := rfl
@[simp] theorem withFetchWord_commands (s : State) (nbits w : Nat) :
    (s.withFetchWord nbits w).commands = s.commands := rfl
@[simp] theorem withFetchWord_records (s : State) (nbits w : Nat) :
    (s.withFetchWord nbits w).records = s.records := rfl

/-- The supply is the waiting inputs while there are any. -/
theorem supply_of_inputs {s : State} {i : Input} {rest : List Input} (h : s.inputs = i :: rest) :
    s.supply = i :: rest := by
  simp [State.supply, h]

/-- The same, for a state written out with an input waiting. -/
@[simp] theorem supply_mk_cons (f : FsmState) (raw : Bool) (tmo : BitVec 16) (retry resync : BitVec 32)
    (exc : ExcCode) (fail : FailCmd) (rom : ModeTable) (rst : Bool) (p : Params) (i : Input)
    (rest again : List Input) (cs : List Command) (rs : List Record) :
    (State.mk f raw tmo retry resync exc fail rom rst p (i :: rest) again cs rs).supply = i :: rest := rfl

/-- With no input waiting the supply is the next round of the repeating ones. -/
theorem supply_of_nil {s : State} (h : s.inputs = []) : s.supply = s.repeating := by
  simp [State.supply, h]

/-- Nothing comes exactly where nothing waits and nothing repeats. -/
theorem supply_eq_nil {s : State} : s.supply = [] ↔ s.inputs = [] ∧ s.repeating = [] := by
  unfold State.supply
  split <;> simp_all

/-- Whatever is supplied is waiting or repeating. -/
theorem mem_of_mem_supply {s : State} {i : Input} (h : i ∈ s.supply) : i ∈ s.inputs ∨ i ∈ s.repeating := by
  unfold State.supply at h
  split at h <;> simp_all

/-- Two states that agree in every field are the same state. -/
theorem State.ext_fields {s t : State} (hfsm : s.fsm = t.fsm) (hraw : s.cfgRaw = t.cfgRaw)
    (htmo : s.timeoutCur = t.timeoutCur) (hretry : s.syncRetry = t.syncRetry)
    (hresync : s.resyncCount = t.resyncCount) (hexc : s.lastExc = t.lastExc) (hfail : s.failCmd = t.failCmd)
    (hrom : s.rom = t.rom) (hreset : s.inReset = t.inReset) (hparams : s.params = t.params)
    (hin : s.inputs = t.inputs) (hrep : s.repeating = t.repeating) (hcmd : s.commands = t.commands)
    (hrec : s.records = t.records) : s = t := by
  cases s
  cases t
  simp_all

end Sys2Proof.Machine
end

