-- ==== Sys2Proof/Laws/Step.lean ====
section
/-!
SUPPORT. What a step can do, said once: an inversion lemma for the dispatch, for the answer to a response, and for
one step. Every later proof about a step cites these.
-/

namespace Sys2Proof.Machine

/-- The saturating increment as a number (00_scope.md R10). -/
theorem satInc32_toNat (x : BitVec 32) : (satInc32 x).toNat = min (x.toNat + 1) (2 ^ 32 - 1) := by
  have := x.isLt
  simp only [satInc32, BitVec.toNat_ofNat]
  omega

/-- The command issued on entering a state, as the state it is entered from sees it. -/
theorem measure_eq_afterRecord (m : Mode) (b : Specials) (d : Digits) (s : State) :
    s.measure m b d = s.afterRecord (measurementRecord b d (scale (s.rom.entry m) b)) := rfl

/-- Every instruction has a next state, and it is one of four (43_resync_fsm.md R189). -/
theorem exec_cases {i : Instr} {s t : State} (h : exec i s = .next t) :
    (∃ m b d, i.mode = some m ∧ t = s.measure m b d) ∨
    (∃ k b d, i = .unknown k b d ∧ t = s.raise (.unknownMode k (parseMag d))) ∨
    (∃ k b r, i = .badDigit k b r ∧ t = s.raise (.badDigit k (digitsField r))) ∨
    (∃ bf r, i = .raw bf r ∧ t = s.afterRecord (rawRecord bf r)) := by
  cases i with
  | unknown k b d => cases h; exact .inr (.inl ⟨k, b, d, rfl, rfl⟩)
  | badDigit k b r => cases h; exact .inr (.inr (.inl ⟨k, b, r, rfl, rfl⟩))
  | raw bf r => cases h; exact .inr (.inr (.inr ⟨bf, r, rfl, rfl⟩))
  | _ b d => cases h; exact .inl ⟨_, b, d, rfl, rfl⟩

/-- A known mode's row is one of that mode's. -/
theorem selectRow_mode (m : Mode) (b : Specials) (d : Digits) : (selectRow m b d).mode = some m := by
  cases m <;> simp only [selectRow] <;> repeat' split
  all_goals rfl

/-- The rows of one mode have the scaler's record as their effect. -/
theorem exec_selectRow (m : Mode) (b : Specials) (d : Digits) (s : State) :
    exec (selectRow m b d) s = .next (s.measure m b d) := by
  cases m <;> simp only [selectRow] <;> repeat' split
  all_goals rfl

/-- What a frame decodes to in decoded mode, in the order BadDigit, UnknownMode, Measurement (60_exceptions.md
R239). -/
theorem decodeFrame_cases (t : ModeTable) (f : Frame) :
    (checkDig (extractDig f) = none ∧
      decodeFrame t false f =
        .badDigit (extractKey (extractBf f)) (extractSpecials (extractBf f)) (extractDig f)) ∨
    (∃ d, checkDig (extractDig f) = some d ∧ t.lookup (extractKey (extractBf f)) = none ∧
      decodeFrame t false f = .unknown (extractKey (extractBf f)) (extractSpecials (extractBf f)) d) ∨
    (∃ d m, checkDig (extractDig f) = some d ∧ t.lookup (extractKey (extractBf f)) = some m ∧
      decodeFrame t false f = selectRow m (extractSpecials (extractBf f)) d) := by
  cases hc : checkDig (extractDig f) with
  | none => exact .inl ⟨rfl, by simp [decodeFrame, hc]⟩
  | some d =>
    cases hl : t.lookup (extractKey (extractBf f)) with
    | none => exact .inr (.inl ⟨d, rfl, rfl, by simp [decodeFrame, hc, hl]⟩)
    | some m => exact .inr (.inr ⟨d, m, rfl, rfl, by simp [decodeFrame, hc, hl]⟩)

/-- A frame of a known mode with valid digits decodes to the row its special bits select. -/
theorem decodeFrame_known {t : ModeTable} (h : t.wf = true) {m : Mode} {f : Frame} {d : Digits}
    (hk : extractKey (extractBf f) = (t.entry m).key) (hd : checkDig (extractDig f) = some d) :
    decodeFrame t false f = selectRow m (extractSpecials (extractBf f)) d := by
  simp [decodeFrame, hd, hk, lookup_entry h]

/-- The scaler's record, from what the chain leaves (30_encoding.md R87). -/
theorem measurementRecord_eq_formRecord {e : ModeEntry} {b : Specials} {u : UnitLabel} {exp0 : Int} {fnn : Bool}
    (h : rewriteChain b (scaleInit e) = { unit := u, exp := exp0, fnn := fnn }) (d : Digits) :
    measurementRecord b d (scale e b) = formRecord u exp0 fnn b d := by
  unfold measurementRecord scale formRecord
  rw [h]
  simp [ovfFlag, negFlag, decimalPlaces, mul10_exp, parseMag, magnitude]

/-- What decoding and running a frame does to any state: one record, which `frameRecord` names, and LAST_EXC at
most (43_resync_fsm.md R189). -/
theorem exec_decodeFrame (s : State) (f : Frame) :
    ∃ e, exec (decodeFrame s.rom s.cfgRaw f) s =
      .next { s.afterRecord (frameRecord s.rom s.cfgRaw f) with lastExc := e } := by
  cases hr : s.cfgRaw with
  | true => exact ⟨s.lastExc, rfl⟩
  | false =>
    obtain ⟨hc, hd⟩ | ⟨d, hc, hl, hd⟩ | ⟨d, m, hc, hl, hd⟩ := decodeFrame_cases s.rom f
    · rw [hd]
      simp only [frameRecord, hc]
      exact ⟨.badDigit, rfl⟩
    · rw [hd]
      simp only [frameRecord, hc, hl]
      exact ⟨.unknownMode, rfl⟩
    · rw [hd, exec_selectRow, measure_eq_afterRecord]
      simp only [frameRecord, hc, hl]
      exact ⟨s.lastExc, rfl⟩

/-- One run of `n + 1` steps is a step and a run of `n`. -/
theorem run_succ {s t : State} (h : step s = .next t) (n : Nat) :
    Sys2Proof.core.run (n + 1) s = Sys2Proof.core.run n t := by
  have h' : Sys2Proof.core.step s = .next t := h
  simp only [Host.Core.run, h']

/-- A run of `m + n` steps is a run of `m`, then a run of `n`. -/
theorem run_add {m : Nat} {s t : State} (h : Sys2Proof.core.run m s = .next t) (n : Nat) :
    Sys2Proof.core.run (m + n) s = Sys2Proof.core.run n t := by
  induction m generalizing s with
  | zero =>
    simp only [Host.Core.run] at h
    cases h
    simp
  | succ m ih =>
    cases hs : step s with
    | next u =>
      rw [run_succ hs] at h
      rw [Nat.add_right_comm, run_succ hs]
      exact ih h
    | fault r => cases r
    | refused r =>
      have hs' : Sys2Proof.core.step s = .refused r := hs
      simp only [Host.Core.run, hs'] at h
      cases h

/-- A full read decodes, a shorter or longer one does not. -/
theorem decode_cases (t : ModeTable) (cfgRaw : Bool) (bytes : List Byte) :
    (bytes.length = 8 ∧ ∃ f, bytes = frameBytes f ∧ decode t cfgRaw bytes = .ok (decodeFrame t cfgRaw f)) ∨
    (bytes.length ≠ 8 ∧ decode t cfgRaw bytes = .error (.notAFrame bytes.length)) := by
  unfold decode
  cases h : frameOfBytes bytes with
  | some f =>
    obtain rfl := frameOfBytes_eq_some.mp h
    exact .inl ⟨rfl, f, rfl, rfl⟩
  | none =>
    refine .inr ⟨fun hl => ?_, rfl⟩
    have := frameOfBytes_isSome.mpr hl
    simp [h] at this

/-- What a step on a response can do in a state that has a command outstanding. -/
theorem answer_cases {run : Instr → State → Host.Outcome State Fault Refusal} {r : Response} {s t : State}
    (hterm : s.fsm.terminal = false) (h : answer run r s = .next t) :
    (s.fsm = .setShort ∧ r = .ack ∧ t = s.tShortAck) ∨
    (s.fsm = .junk ∧ (∃ bytes, r = .data bytes ∧ bytes.length ≤ 16) ∧ t = s.junkDone) ∨
    (s.fsm = .probe ∧ (∃ bytes, r = .data bytes ∧ bytes.length < 8) ∧ t = s.probeShort) ∨
    (s.fsm = .probe ∧ (∃ bytes, r = .data bytes ∧ bytes.length = 8) ∧ t = s.probeFull) ∨
    (s.fsm = .setLong ∧ r = .ack ∧ t = s.tLongAck) ∨
    (s.fsm = .run ∧ (∃ bytes, r = .data bytes ∧ bytes.length < 8 ∧ t = s.runShort bytes.length)) ∨
    (s.fsm = .run ∧ ∃ f, r = .data (frameBytes f) ∧ run (decodeFrame s.rom s.cfgRaw f) s = .next t) ∨
    (r = .fail ∧ t = s.streamFail) := by
  unfold answer at h
  split at h
  case h_1 hs =>
    cases r <;> simp only [answerSetTimeout] at h <;> cases h
    · exact .inl ⟨hs, rfl, rfl⟩
    · simp
  case h_2 hs =>
    cases r <;> simp only [answerRead] at h
    case data bytes =>
      split at h <;> cases h
      exact .inr (.inl ⟨hs, ⟨bytes, rfl, ‹_›⟩, rfl⟩)
    all_goals cases h
    simp
  case h_3 hs =>
    cases r <;> simp only [answerRead] at h
    case data bytes =>
      split at h
      · rename_i hle
        have hle : bytes.length ≤ 8 := hle
        split at h
        · rename_i hlt
          cases h
          exact .inr (.inr (.inl ⟨hs, ⟨bytes, rfl, hlt⟩, rfl⟩))
        · rename_i hlt
          have hlt : ¬bytes.length < 8 := hlt
          cases h
          exact .inr (.inr (.inr (.inl ⟨hs, ⟨bytes, rfl, by omega⟩, rfl⟩)))
      · cases h
    all_goals cases h
    simp
  case h_4 hs =>
    cases r <;> simp only [answerSetTimeout] at h <;> cases h
    · exact .inr (.inr (.inr (.inr (.inl ⟨hs, rfl, rfl⟩))))
    · simp
  case h_5 hs =>
    cases r <;> simp only [answerRead] at h
    case data bytes =>
      split at h
      · rename_i hlen
        have hlen : bytes.length ≤ 8 := hlen
        simp only [runData] at h
        obtain ⟨_, f, rfl, hd⟩ | ⟨hne, hd⟩ := decode_cases s.rom s.cfgRaw bytes
        · rw [hd] at h
          exact .inr (.inr (.inr (.inr (.inr (.inr (.inl ⟨hs, f, rfl, h⟩))))))
        · rw [hd] at h
          cases h
          exact .inr (.inr (.inr (.inr (.inr (.inl ⟨hs, bytes, rfl, by omega, rfl⟩)))))
      · cases h
    all_goals cases h
    simp
  case h_6 hs => simp [hs, FsmState.terminal] at hterm
  case h_7 hs => simp [hs, FsmState.terminal] at hterm

/-- What one step can do: wait, or take the next input in the order RESET, CANCEL, response (60_exceptions.md
R238). -/
theorem step_cases {s t : State} (h : step s = .next t) :
    (s.supply = [] ∧ t = s) ∨
    ∃ i rest u, s.supply = i :: rest ∧ u = { s with inputs := rest } ∧
      ((i.reset = true ∧ t = u.holdReset i.rawMode) ∨
       (i.reset = false ∧ s.inReset = true ∧ t = u.leaveReset i.rawMode) ∨
       (i.reset = false ∧ s.inReset = false ∧ s.fsm.terminal = true ∧ t = u) ∨
       (i.reset = false ∧ s.inReset = false ∧ s.fsm.terminal = false ∧ i.cancel = true ∧ t = u.cancel) ∨
       (i.reset = false ∧ s.inReset = false ∧ s.fsm.terminal = false ∧ i.cancel = false ∧ i.resp = none ∧
        t = u) ∨
       (i.reset = false ∧ s.inReset = false ∧ s.fsm.terminal = false ∧ i.cancel = false ∧
        ∃ r, i.resp = some r ∧ answer exec r u = .next t)) := by
  unfold step tick at h
  split at h
  · rename_i hin
    cases h
    exact .inl ⟨hin, rfl⟩
  · rename_i i rest hin
    refine .inr ⟨i, rest, _, hin, rfl, ?_⟩
    unfold present at h
    split at h
    · cases h
      exact .inl ⟨‹_›, rfl⟩
    · rename_i h1
      have h1 : i.reset = false := by simpa using h1
      split at h
      · cases h
        exact .inr (.inl ⟨h1, ‹_›, rfl⟩)
      · rename_i h2
        have h2 : s.inReset = false := by simpa using h2
        split at h
        · cases h
          exact .inr (.inr (.inl ⟨h1, h2, ‹_›, rfl⟩))
        · rename_i h3
          have h3 : s.fsm.terminal = false := by simpa using h3
          split at h
          · cases h
            exact .inr (.inr (.inr (.inl ⟨h1, h2, h3, ‹_›, rfl⟩)))
          · rename_i h4
            have h4 : i.cancel = false := by simpa using h4
            split at h
            · cases h
              exact .inr (.inr (.inr (.inr (.inl ⟨h1, h2, h3, h4, ‹_›, rfl⟩))))
            · exact .inr (.inr (.inr (.inr (.inr ⟨h1, h2, h3, h4, _, ‹_›, h⟩))))

/-- A step on a stream response: RESET and CANCEL stay out, so the resync state machine answers. -/
theorem step_receives {s : State} {r : Response} {rest : List Input} (h : s.Receives r rest) :
    step s = answer exec r { s with inputs := rest } := by
  obtain ⟨hr, ht, rm, hin⟩ := h
  simp [step, tick, hin, present, hr, ht]

end Sys2Proof.Machine
end

