-- ==== Sys2Proof/Tests/Slice0.lean ====
section
/-!
SUPPORT. The model's own tests: ill-formed terms that WellFormed refuses, one written-out frame for each row of
spec/opcode_table.json and the record it emits, the steps of spec/95_test_vectors.md, and a witness for the
hypotheses of each statement. Every expected value is one of 95_test_vectors.md or worked out from the rule named.
-/

namespace Sys2Proof.Tests

open Sys2Proof Sys2Proof.Machine

/-- Keys for the tests: 0x18B for V DC and 0x001 for Ohm, as the spec's own frames use them, and 0x100 plus the
mode's index for the others. -/
def demoKey : Mode → ModeKey
  | .vdc => 0x18B
  | .ohm => 0x001
  | m => BitVec.ofNat 9 (0x100 + m.ctorIdx)

/-- The ROM with the test keys; 0x002 is none of them. -/
def demoRom : ModeTable := ModeTable.ofKeys demoKey

/-- The state right after reset with the test keys, moved to a given FSM_STATE. -/
def inState (f : FsmState) : State :=
  { State.resetWith false demoRom Config.defaultParams with fsm := f }

/-- A state whose next input is the given one. -/
def fed (s : State) (i : Input) : State := { s with inputs := [i] }

/-- A state whose next input is the given response. -/
def answered (s : State) (r : Response) : State := fed s (Input.respond r)

/-- The state a step ends in, if it ends in one. -/
def nextOf : Host.Outcome State Fault Refusal → Option State
  | .next t => some t
  | _ => none

/-- The step on a given input. -/
def after (s : State) (i : Input) : Option State := nextOf (step (fed s i))

/-- The 80-bit words of the records that the step on a response emits from no records. -/
def emitted (s : State) (r : Response) : Option (List RecordWord) :=
  (after s (Input.respond r)).map fun t => t.records.map recordWord

/-- What bytes decode to with the test keys. -/
def decoded (cfgRaw : Bool) (bytes : List Byte) : Option Instr := (decode demoRom cfgRaw bytes).toOption

/-- No special bit and no unused bit set. -/
def clear : Specials where
  x10 := false
  sel1 := false
  sel2 := false
  alt := false
  ol := false
  cap := false
  sign := false
  unusedLow := 0
  unusedHigh := 0

/-- `n` bytes. -/
def someBytes (n : Nat) : List Byte := List.replicate n 0x5A

/-- FSM_STATE, TIMEOUT_CUR, SYNC_RETRY, RESYNC_COUNT, the codes of LAST_EXC and FAIL_CMD, and the commands issued
beyond reset's. -/
def shown (s : State) : List Nat × List Command :=
  ([(fsmCode s.fsm).toNat, s.timeoutCur.toNat, s.syncRetry.toNat, s.resyncCount.toNat, (excCode s.lastExc).toNat,
    (failCode s.failCmd).toNat], s.commands.tail)

/-! ## WellFormed refuses an ill-formed term for each check -/

/-- Two modes under one key (00_scope.md R7). -/
theorem test_wf_duplicate_keys : (ModeTable.ofKeys fun _ => 0x001).wf = false := by decide

/-- A wrong base unit, and a wrong divisor (30_encoding.md R77). -/
theorem test_wf_wrong_contents :
    ({ demoRom with hz := { demoRom.hz with baseUnit := .vf } } : ModeTable).wf = false ∧
      ({ demoRom with hz := { demoRom.hz with divExp := 2 } } : ModeTable).wf = false := by decide

theorem test_wf_demoRom : demoRom.wf = true := by decide

/-- Rows whose selecting bits are not those of spec/opcode_table.json: one for each bit a row fixes. -/
theorem test_wf_rows_refused :
    ([ .vac { clear with alt := true } ⟨1, 2, 3, 4, 5⟩,
       .vacMadc clear ⟨1, 2, 3, 4, 5⟩,
       .pct { clear with cap := true } ⟨1, 2, 3, 4, 5⟩,
       .pctNf clear ⟨1, 2, 3, 4, 5⟩,
       .pctNf { clear with cap := true, sel2 := true } ⟨1, 2, 3, 4, 5⟩,
       .pctUf { clear with cap := true } ⟨1, 2, 3, 4, 5⟩,
       .pctUf { clear with sel2 := true } ⟨1, 2, 3, 4, 5⟩,
       .mvdc { clear with alt := true } ⟨1, 2, 3, 4, 5⟩,
       .mvdcAac clear ⟨1, 2, 3, 4, 5⟩,
       .nf { clear with sel2 := true } ⟨1, 2, 3, 4, 5⟩,
       .nfUf clear ⟨1, 2, 3, 4, 5⟩,
       .vdc { clear with alt := true } ⟨1, 2, 3, 4, 5⟩,
       .vdcMaacdc clear ⟨1, 2, 3, 4, 5⟩,
       .ohm { clear with sel1 := true } ⟨1, 2, 3, 4, 5⟩,
       .ohm { clear with sel2 := true } ⟨1, 2, 3, 4, 5⟩,
       .ohmK clear ⟨1, 2, 3, 4, 5⟩,
       .ohmK { clear with sel1 := true, sel2 := true } ⟨1, 2, 3, 4, 5⟩,
       .ohmM clear ⟨1, 2, 3, 4, 5⟩,
       .dbm { clear with sign := true } ⟨1, 2, 3, 4, 5⟩,
       .dbmMaac clear ⟨1, 2, 3, 4, 5⟩,
       .mvac { clear with alt := true } ⟨1, 2, 3, 4, 5⟩,
       .mvacAacdc clear ⟨1, 2, 3, 4, 5⟩ ] : List Instr).all (fun i => !i.wf demoRom) = true := by decide

/-- UNKNOWN with a known key, and BADDIGIT with five good digits. -/
theorem test_wf_diagnostics_refused :
    (Instr.unknown 0x18B clear ⟨1, 2, 3, 4, 5⟩).wf demoRom = false ∧
      (Instr.badDigit 0x18B clear ⟨0x30, 0x31, 0x32, 0x33, 0x34⟩).wf demoRom = false := by decide

/-- Every row has a well-formed form. -/
theorem test_wf_rows_accepted :
    ([ .vac ({ clear with sel1 := true }) ⟨1, 2, 3, 4, 5⟩,
       .vacMadc ({ clear with x10 := true, sel1 := true, alt := true, sign := true }) ⟨1, 2, 3, 4, 5⟩,
       .pct ({ clear with sign := true }) ⟨1, 2, 3, 4, 5⟩,
       .pctNf ({ clear with cap := true }) ⟨9, 9, 9, 9, 9⟩,
       .pctUf ({ clear with sel2 := true, cap := true }) ⟨1, 2, 3, 4, 5⟩,
       .mvdc ({ clear with sign := true }) ⟨1, 2, 3, 4, 5⟩,
       .mvdcAac ({ clear with alt := true, sign := true }) ⟨1, 2, 3, 4, 5⟩,
       .nf ({ clear with cap := true }) ⟨1, 2, 3, 4, 5⟩,
       .nfUf ({ clear with x10 := true, sel2 := true }) ⟨9, 9, 9, 9, 9⟩,
       .vdc ({ clear with unusedLow := 0x3F, unusedHigh := 3 }) ⟨0, 1, 2, 3, 4⟩,
       .vdcMaacdc ({ clear with alt := true, sign := true }) ⟨1, 2, 3, 4, 5⟩,
       .ohm ({ clear with x10 := true }) ⟨1, 2, 3, 4, 5⟩,
       .ohmK ({ clear with sel1 := true }) ⟨1, 2, 3, 4, 5⟩,
       .ohmM ({ clear with sel1 := true, sel2 := true }) ⟨1, 2, 3, 4, 5⟩,
       .mvacdc ({ clear with alt := true }) ⟨1, 2, 3, 4, 5⟩,
       .uaac ({ clear with sign := true }) ⟨1, 2, 3, 4, 5⟩,
       .dbm clear ⟨1, 2, 3, 4, 5⟩,
       .dbmMaac ({ clear with x10 := true, sign := true }) ⟨1, 2, 3, 4, 5⟩,
       .vf clear ⟨1, 2, 3, 4, 5⟩,
       .mvac clear ⟨1, 2, 3, 4, 5⟩,
       .mvacAacdc ({ clear with alt := true, sign := true }) ⟨1, 2, 3, 4, 5⟩,
       .uadc ({ clear with sign := true }) ⟨1, 2, 3, 4, 5⟩,
       .adc ({ clear with x10 := true }) ⟨1, 2, 3, 4, 5⟩,
       .hz ({ clear with ol := true }) ⟨1, 2, 3, 4, 5⟩,
       .uaacdc ({ clear with sign := true }) ⟨1, 2, 3, 4, 5⟩,
       .unknown 0x002 clear ⟨0, 0, 0, 4, 2⟩,
       .badDigit 0x18B clear ⟨0x30, 0x31, 0x3A, 0x33, 0x34⟩,
       .raw 0x213C5A ⟨0x39, 0x38, 0x37, 0x36, 0x35⟩ ] : List Instr).all (fun i => i.wf demoRom) = true := by decide

/-! ## Each row: its frame written out by 30_encoding.md R70, R71, R76, R89, and the record of 95_test_vectors.md -/

/-- FRAME(0x100, 0x000002, "12345"). -/
theorem test_decode_vac :
    decoded false [0x02, 0x08, 0x00, 0x31, 0x32, 0x33, 0x34, 0x35] =
      some (.vac ({ clear with sel1 := true }) ⟨1, 2, 3, 4, 5⟩) := by decide

theorem test_record_vac :
    emitted (inState .run) (.data [0x02, 0x08, 0x00, 0x31, 0x32, 0x33, 0x34, 0x35]) = some [0x6072800] := by decide

/-- FRAME(0x100, 0x201003, "12345"). -/
theorem test_decode_vacMadc :
    decoded false [0x03, 0x18, 0x20, 0x31, 0x32, 0x33, 0x34, 0x35] =
      some (.vacMadc ({ clear with x10 := true, sel1 := true, alt := true, sign := true }) ⟨1, 2, 3, 4, 5⟩) := by decide

theorem test_record_vacMadc :
    emitted (inState .run) (.data [0x03, 0x18, 0x20, 0x31, 0x32, 0x33, 0x34, 0x35]) = some [0x60724A8] := by decide

/-- FRAME(0x101, 0x200000, "12345"). -/
theorem test_decode_pct :
    decoded false [0x08, 0x08, 0x20, 0x31, 0x32, 0x33, 0x34, 0x35] =
      some (.pct ({ clear with sign := true }) ⟨1, 2, 3, 4, 5⟩) := by decide

theorem test_record_pct :
    emitted (inState .run) (.data [0x08, 0x08, 0x20, 0x31, 0x32, 0x33, 0x34, 0x35]) = some [0x6072A08] := by decide

/-- FRAME(0x101, 0x004000, "99999"). -/
theorem test_decode_pctNf :
    decoded false [0x08, 0x48, 0x00, 0x39, 0x39, 0x39, 0x39, 0x39] =
      some (.pctNf ({ clear with cap := true }) ⟨9, 9, 9, 9, 9⟩) := by decide

theorem test_record_pctNf :
    emitted (inState .run) (.data [0x08, 0x48, 0x00, 0x39, 0x39, 0x39, 0x39, 0x39]) = some [0x30D3F418] := by decide

/-- FRAME(0x101, 0x004004, "12345"). -/
theorem test_decode_pctUf :
    decoded false [0x0C, 0x48, 0x00, 0x31, 0x32, 0x33, 0x34, 0x35] =
      some (.pctUf ({ clear with sel2 := true, cap := true }) ⟨1, 2, 3, 4, 5⟩) := by decide

theorem test_record_pctUf :
    emitted (inState .run) (.data [0x0C, 0x48, 0x00, 0x31, 0x32, 0x33, 0x34, 0x35]) = some [0x6073088] := by decide

/-- FRAME(0x102, 0x200000, "12345"). -/
theorem test_decode_mvdc :
    decoded false [0x10, 0x08, 0x20, 0x31, 0x32, 0x33, 0x34, 0x35] =
      some (.mvdc ({ clear with sign := true }) ⟨1, 2, 3, 4, 5⟩) := by decide

theorem test_record_mvdc :
    emitted (inState .run) (.data [0x10, 0x08, 0x20, 0x31, 0x32, 0x33, 0x34, 0x35]) = some [0x6072E10] := by decide

/-- FRAME(0x102, 0x201000, "12345"). -/
theorem test_decode_mvdcAac :
    decoded false [0x10, 0x18, 0x20, 0x31, 0x32, 0x33, 0x34, 0x35] =
      some (.mvdcAac ({ clear with alt := true, sign := true }) ⟨1, 2, 3, 4, 5⟩) := by decide

theorem test_record_mvdcAac :
    emitted (inState .run) (.data [0x10, 0x18, 0x20, 0x31, 0x32, 0x33, 0x34, 0x35]) = some [0x6073090] := by decide

/-- FRAME(0x103, 0x004000, "12345"). -/
theorem test_decode_nf :
    decoded false [0x18, 0x48, 0x00, 0x31, 0x32, 0x33, 0x34, 0x35] =
      some (.nf ({ clear with cap := true }) ⟨1, 2, 3, 4, 5⟩) := by decide

theorem test_record_nf :
    emitted (inState .run) (.data [0x18, 0x48, 0x00, 0x31, 0x32, 0x33, 0x34, 0x35]) = some [0x6072818] := by decide

/-- FRAME(0x103, 0x000005, "99999"). -/
theorem test_decode_nfUf :
    decoded false [0x1D, 0x08, 0x00, 0x39, 0x39, 0x39, 0x39, 0x39] =
      some (.nfUf ({ clear with x10 := true, sel2 := true }) ⟨9, 9, 9, 9, 9⟩) := by decide

theorem test_record_nfUf :
    emitted (inState .run) (.data [0x1D, 0x08, 0x00, 0x39, 0x39, 0x39, 0x39, 0x39]) = some [0x30D3E088] := by decide

/-- FRAME(0x18B, 0xDF8000, "01234"). -/
theorem test_decode_vdc :
    decoded false [0x58, 0x8C, 0xDF, 0x30, 0x31, 0x32, 0x33, 0x34] =
      some (.vdc ({ clear with unusedLow := 0x3F, unusedHigh := 3 }) ⟨0, 1, 2, 3, 4⟩) := by decide

theorem test_record_vdc :
    emitted (inState .run) (.data [0x58, 0x8C, 0xDF, 0x30, 0x31, 0x32, 0x33, 0x34]) = some [0x9A5020] := by decide

/-- FRAME(0x18B, 0x201000, "12345"). -/
theorem test_decode_vdcMaacdc :
    decoded false [0x58, 0x1C, 0x20, 0x31, 0x32, 0x33, 0x34, 0x35] =
      some (.vdcMaacdc ({ clear with alt := true, sign := true }) ⟨1, 2, 3, 4, 5⟩) := by decide

theorem test_record_vdcMaacdc :
    emitted (inState .run) (.data [0x58, 0x1C, 0x20, 0x31, 0x32, 0x33, 0x34, 0x35]) = some [0x6072E98] := by decide

/-- FRAME(0x001, 0x000001, "12345"). -/
theorem test_decode_ohm :
    decoded false [0x09, 0x00, 0x00, 0x31, 0x32, 0x33, 0x34, 0x35] =
      some (.ohm ({ clear with x10 := true }) ⟨1, 2, 3, 4, 5⟩) := by decide

theorem test_record_ohm :
    emitted (inState .run) (.data [0x09, 0x00, 0x00, 0x31, 0x32, 0x33, 0x34, 0x35]) = some [0x6072428] := by decide

/-- FRAME(0x001, 0x000002, "12345"). -/
theorem test_decode_ohmK :
    decoded false [0x0A, 0x00, 0x00, 0x31, 0x32, 0x33, 0x34, 0x35] =
      some (.ohmK ({ clear with sel1 := true }) ⟨1, 2, 3, 4, 5⟩) := by decide

theorem test_record_ohmK :
    emitted (inState .run) (.data [0x0A, 0x00, 0x00, 0x31, 0x32, 0x33, 0x34, 0x35]) = some [0x6072C80] := by decide

/-- FRAME(0x001, 0x000006, "12345"). -/
theorem test_decode_ohmM :
    decoded false [0x0E, 0x00, 0x00, 0x31, 0x32, 0x33, 0x34, 0x35] =
      some (.ohmM ({ clear with sel1 := true, sel2 := true }) ⟨1, 2, 3, 4, 5⟩) := by decide

theorem test_record_ohmM :
    emitted (inState .run) (.data [0x0E, 0x00, 0x00, 0x31, 0x32, 0x33, 0x34, 0x35]) = some [0x6073078] := by decide

/-- FRAME(0x106, 0x001000, "12345"). -/
theorem test_decode_mvacdc :
    decoded false [0x30, 0x18, 0x00, 0x31, 0x32, 0x33, 0x34, 0x35] =
      some (.mvacdc ({ clear with alt := true }) ⟨1, 2, 3, 4, 5⟩) := by decide

theorem test_record_mvacdc :
    emitted (inState .run) (.data [0x30, 0x18, 0x00, 0x31, 0x32, 0x33, 0x34, 0x35]) = some [0x6072830] := by decide

/-- FRAME(0x107, 0x200000, "12345"). -/
theorem test_decode_uaac :
    decoded false [0x38, 0x08, 0x20, 0x31, 0x32, 0x33, 0x34, 0x35] =
      some (.uaac ({ clear with sign := true }) ⟨1, 2, 3, 4, 5⟩) := by decide

theorem test_record_uaac :
    emitted (inState .run) (.data [0x38, 0x08, 0x20, 0x31, 0x32, 0x33, 0x34, 0x35]) = some [0x6072838] := by decide

/-- FRAME(0x108, 0x000000, "12345"). -/
theorem test_decode_dbm :
    decoded false [0x40, 0x08, 0x00, 0x31, 0x32, 0x33, 0x34, 0x35] =
      some (.dbm clear ⟨1, 2, 3, 4, 5⟩) := by decide

theorem test_record_dbm :
    emitted (inState .run) (.data [0x40, 0x08, 0x00, 0x31, 0x32, 0x33, 0x34, 0x35]) = some [0x6072840] := by decide

/-- FRAME(0x108, 0x200001, "12345"). -/
theorem test_decode_dbmMaac :
    decoded false [0x41, 0x08, 0x20, 0x31, 0x32, 0x33, 0x34, 0x35] =
      some (.dbmMaac ({ clear with x10 := true, sign := true }) ⟨1, 2, 3, 4, 5⟩) := by decide

theorem test_record_dbmMaac :
    emitted (inState .run) (.data [0x41, 0x08, 0x20, 0x31, 0x32, 0x33, 0x34, 0x35]) = some [0x60728B0] := by decide

/-- FRAME(0x109, 0x000000, "12345"). -/
theorem test_decode_vf :
    decoded false [0x48, 0x08, 0x00, 0x31, 0x32, 0x33, 0x34, 0x35] =
      some (.vf clear ⟨1, 2, 3, 4, 5⟩) := by decide

theorem test_record_vf :
    emitted (inState .run) (.data [0x48, 0x08, 0x00, 0x31, 0x32, 0x33, 0x34, 0x35]) = some [0x6073048] := by decide

/-- FRAME(0x10A, 0x000000, "12345"). -/
theorem test_decode_mvac :
    decoded false [0x50, 0x08, 0x00, 0x31, 0x32, 0x33, 0x34, 0x35] =
      some (.mvac clear ⟨1, 2, 3, 4, 5⟩) := by decide

theorem test_record_mvac :
    emitted (inState .run) (.data [0x50, 0x08, 0x00, 0x31, 0x32, 0x33, 0x34, 0x35]) = some [0x6072C50] := by decide

/-- FRAME(0x10A, 0x201000, "12345"). -/
theorem test_decode_mvacAacdc :
    decoded false [0x50, 0x18, 0x20, 0x31, 0x32, 0x33, 0x34, 0x35] =
      some (.mvacAacdc ({ clear with alt := true, sign := true }) ⟨1, 2, 3, 4, 5⟩) := by decide

theorem test_record_mvacAacdc :
    emitted (inState .run) (.data [0x50, 0x18, 0x20, 0x31, 0x32, 0x33, 0x34, 0x35]) = some [0x60732A0] := by decide

/-- FRAME(0x10B, 0x200000, "12345"). -/
theorem test_decode_uadc :
    decoded false [0x58, 0x08, 0x20, 0x31, 0x32, 0x33, 0x34, 0x35] =
      some (.uadc ({ clear with sign := true }) ⟨1, 2, 3, 4, 5⟩) := by decide

theorem test_record_uadc :
    emitted (inState .run) (.data [0x58, 0x08, 0x20, 0x31, 0x32, 0x33, 0x34, 0x35]) = some [0x6072A58] := by decide

/-- FRAME(0x10C, 0x000001, "12345"). -/
theorem test_decode_adc :
    decoded false [0x61, 0x08, 0x00, 0x31, 0x32, 0x33, 0x34, 0x35] =
      some (.adc ({ clear with x10 := true }) ⟨1, 2, 3, 4, 5⟩) := by decide

theorem test_record_adc :
    emitted (inState .run) (.data [0x61, 0x08, 0x00, 0x31, 0x32, 0x33, 0x34, 0x35]) = some [0x6072C60] := by decide

/-- FRAME(0x10D, 0x002000, "12345"). -/
theorem test_decode_hz :
    decoded false [0x68, 0x28, 0x00, 0x31, 0x32, 0x33, 0x34, 0x35] =
      some (.hz ({ clear with ol := true }) ⟨1, 2, 3, 4, 5⟩) := by decide

theorem test_record_hz :
    emitted (inState .run) (.data [0x68, 0x28, 0x00, 0x31, 0x32, 0x33, 0x34, 0x35]) = some [0x168] := by decide

/-- FRAME(0x10E, 0x200000, "12345"). -/
theorem test_decode_uaacdc :
    decoded false [0x70, 0x08, 0x20, 0x31, 0x32, 0x33, 0x34, 0x35] =
      some (.uaacdc ({ clear with sign := true }) ⟨1, 2, 3, 4, 5⟩) := by decide

theorem test_record_uaacdc :
    emitted (inState .run) (.data [0x70, 0x08, 0x20, 0x31, 0x32, 0x33, 0x34, 0x35]) = some [0x6072A70] := by decide

/-- FRAME(0x002, 0x202000, "00042"): the key is in no entry (95_test_vectors.md L1-2). -/
theorem test_decode_unknown :
    decoded false [0x10, 0x20, 0x20, 0x30, 0x30, 0x30, 0x34, 0x32] =
      some (.unknown 0x002 { clear with ol := true, sign := true } ⟨0, 0, 0, 4, 2⟩) := by decide

theorem test_record_unknown :
    emitted (inState .run) (.data [0x10, 0x20, 0x20, 0x30, 0x30, 0x30, 0x34, 0x32]) = some [0x2A011] := by decide

/-- The first BadDigit frame of 95_test_vectors.md 2.1: OL and SIGN are set, and its key is V DC's. -/
theorem test_decode_badDigit :
    decoded false [0x5A, 0x3C, 0x21, 0x30, 0x31, 0x3A, 0x33, 0x34] =
      some (.badDigit 0x18B { clear with sel1 := true, alt := true, ol := true, sign := true, unusedLow := 0x02 }
        ⟨0x30, 0x31, 0x3A, 0x33, 0x34⟩) := by decide

theorem test_record_badDigit :
    emitted (inState .run) (.data [0x5A, 0x3C, 0x21, 0x30, 0x31, 0x3A, 0x33, 0x34]) = some [0x34333A3130C5A] := by decide

/-- The first raw frame of 95_test_vectors.md 2.5. -/
theorem test_decode_raw :
    decoded true [0x5A, 0x3C, 0x21, 0x39, 0x38, 0x37, 0x36, 0x35] = some (.raw 0x213C5A ⟨0x39, 0x38, 0x37, 0x36, 0x35⟩) := by decide

theorem test_record_raw :
    emitted { inState .run with cfgRaw := true } (.data [0x5A, 0x3C, 0x21, 0x39, 0x38, 0x37, 0x36, 0x35]) = some [0x06A6C6E7073C5909E2D3] := by decide

/-- Seven and nine bytes are no frame (20_memory.md R54). -/
theorem test_decode_rejects :
    decode demoRom false (someBytes 7) = .error (.notAFrame 7) ∧
      decode demoRom false (someBytes 9) = .error (.notAFrame 9) := ⟨rfl, rfl⟩

/-- The decoder over a numbered word, with the machine's own ROM: a frame of zeros is BADDIGIT, whatever the keys
(95_test_vectors.md 2.1). -/
theorem test_decodeTableWord :
    decodeTableWord 24 0x000008 = some (.badDigit 0x001 clear ⟨0, 0, 0, 0, 0⟩) := by decide

/-! ## Extraction, digits, the scaler's order (95_test_vectors.md 2.1 to 2.3, 2.6) -/

theorem test_extract_key :
    extractKey (extractBf ⟨0x5A, 0x3C, 0x21, 0, 0, 0, 0, 0⟩) = 0x18B ∧
      extractKey (extractBf ⟨0x00, 0x01, 0x00, 0, 0, 0, 0, 0⟩) = 0x020 := by decide

theorem test_extract_specials :
    extractSpecials (extractBf ⟨0x07, 0x70, 0x20, 0, 0, 0, 0, 0⟩) = ⟨true, true, true, true, true, true, true, 0, 0⟩ ∧
      extractSpecials (extractBf ⟨0x00, 0x80, 0xDF, 0, 0, 0, 0, 0⟩) =
        { clear with unusedLow := 0x3F, unusedHigh := 3 } := by decide

theorem test_digits_refused :
    checkDig ⟨0x30, 0x30, 0x30, 0x30, 0x2F⟩ = none ∧ checkDig ⟨0x30, 0x31, 0x3A, 0x33, 0x34⟩ = none ∧
      checkDig ⟨0x39, 0x39, 0x39, 0x39, 0x80⟩ = none := by decide

theorem test_digits_accepted :
    (checkDig ⟨0x30, 0x31, 0x32, 0x33, 0x34⟩).map magnitude = some 1234 ∧
      (checkDig ⟨0x39, 0x39, 0x39, 0x39, 0x39⟩).map magnitude = some 99999 := by decide

/-- FRAME(KEY_V_DC, 0x003000, "12345"): the unit the chain produced, under OVERFLOW. -/
theorem test_overflow_after_rewrite :
    emitted (inState .run) (.data [0x58, 0x3C, 0x00, 0x31, 0x32, 0x33, 0x34, 0x35]) = some [0x198] := by decide

/-- FRAME(KEY_V_DC, 0x200000, "00000"): value 0 with NEG 1 (92_eei_decisions.md D9). -/
theorem test_negative_zero :
    emitted (inState .run) (.data [0x58, 0x0C, 0x20, 0x30, 0x30, 0x30, 0x30, 0x30]) = some [0x1220] := by decide

/-- FRAME(K_u, 0, "12:45"): BadDigit before UnknownMode (60_exceptions.md R239). -/
theorem test_bad_digit_before_unknown :
    decoded false [0x10, 0x00, 0x00, 0x31, 0x32, 0x3A, 0x34, 0x35] =
      some (.badDigit 0x002 clear ⟨0x31, 0x32, 0x3A, 0x34, 0x35⟩) := by decide

/-! ## The resync state machine, one step each (95_test_vectors.md 2.4) -/

theorem test_T1 :
    (after (inState .setShort) (.respond .ack)).map shown =
      some ([1, 50, 0, 0, 0, 0], [.read 16]) := by decide

theorem test_T2 :
    (after (inState .junk) (.respond (.data (someBytes 16)))).map shown =
      some ([2, 0, 0, 0, 0, 0], [.read 8]) := by decide

theorem test_T3 :
    (after (inState .junk) (.respond (.data []))).map shown =
      some ([2, 0, 0, 0, 0, 0], [.read 8]) := by decide

theorem test_T4 :
    (after (inState .junk) (.respond (.data (someBytes 8)))).map shown =
      some ([2, 0, 0, 0, 0, 0], [.read 8]) := by decide

theorem test_T5 :
    (after (inState .probe) (.respond (.data []))).map shown =
      some ([2, 0, 1, 0, 0, 0], [.read 8]) := by decide

theorem test_T6 :
    (after { inState .probe with syncRetry := 0xFFFFFFFF } (.respond (.data (someBytes 7)))).map shown =
      some ([2, 0, 0xFFFFFFFF, 0, 0, 0], [.read 8]) := by decide

theorem test_T7 :
    (after (inState .probe) (.respond (.data (someBytes 8)))).map shown =
      some ([3, 0, 0, 0, 0, 0], [.setTimeout 400]) := by decide

theorem test_T8 :
    (after (inState .setLong) (.respond .ack)).map shown =
      some ([4, 400, 0, 0, 0, 0], [.read 8]) := by decide

theorem test_T9 :
    (after { inState .run with syncRetry := 3, timeoutCur := 400 } (.respond (.data (someBytes 7)))).map shown =
      some ([0, 400, 0, 1, 1, 0], [.setTimeout 50]) := by decide

theorem test_T10 :
    (after (inState .run) (.respond (.data []))).map shown =
      some ([0, 0, 0, 1, 1, 0], [.setTimeout 50]) := by decide

theorem test_T11 :
    (after { inState .run with resyncCount := 0xFFFFFFFF } (.respond (.data (someBytes 1)))).map shown =
      some ([0, 0, 0, 0xFFFFFFFF, 1, 0], [.setTimeout 50]) := by decide

theorem test_T12 :
    (after (inState .run) (.respond (.data [0x58, 0x0C, 0x00, 0x30, 0x31, 0x32, 0x33, 0x34]))).map shown =
      some ([4, 0, 0, 0, 0, 0], [.read 8]) := by decide

theorem test_T13 :
    (after (inState .setShort) (.respond .fail)).map shown =
      some ([6, 0, 0, 0, 4, 1], []) := by decide

theorem test_T14 :
    (after (inState .probe) (.respond .fail)).map shown =
      some ([6, 0, 0, 0, 4, 2], []) := by decide

theorem test_T15 :
    (after (inState .setLong) (.respond .fail)).map shown =
      some ([6, 0, 0, 0, 4, 1], []) := by decide

theorem test_T16 :
    (after (inState .junk) Input.cancellation).map shown =
      some ([5, 0, 0, 0, 5, 0], [.close]) := by decide

theorem test_T17 :
    (after (inState .run) { Input.cancellation with resp := some (.data (someBytes 8)) }).map shown =
      some ([5, 0, 0, 0, 5, 0], [.close]) := by decide

theorem test_T18 :
    (after { inState .failed with failCmd := .read } (.respond (.data (someBytes 8)))).map shown =
      some ([6, 0, 0, 0, 0, 2], []) := by decide

/-- T19: RESET from ST_FAILED, then its deassertion. -/
theorem test_T19 :
    (after { inState .failed with failCmd := .read, resyncCount := 9 }
        { reset := true, rawMode := true, cancel := false, resp := none }).map shown =
      some ([0, 0, 0, 0, 0, 0], []) ∧
    (after { inState .failed with failCmd := .read, resyncCount := 9, inReset := true }
        { reset := false, rawMode := true, cancel := false, resp := none }).map (fun t => (shown t, t.cfgRaw)) =
      some (([0, 0, 0, 0, 0, 0], [.setTimeout 50]), true) := by decide

/-- T20: RESET wins over CANCEL. -/
theorem test_T20 :
    (after (inState .probe) { reset := true, rawMode := false, cancel := true, resp := none }).map shown =
      some ([0, 0, 0, 0, 0, 0], []) := by decide

/-- T21, T22: responses outside the contract have no step. -/
theorem test_T21_T22 :
    step (answered (inState .probe) (.data (someBytes 9))) = .refused .responseTooLong ∧
      step (answered (inState .setShort) (.data (someBytes 8))) = .refused .responseOfWrongKind ∧
      step (answered (inState .run) .ack) = .refused .responseOfWrongKind ∧
      step (answered (inState .run) .reserved) = .refused .responseReserved := ⟨rfl, rfl, rfl, rfl⟩

/-- STATUS values (95_test_vectors.md 2.4, last table). -/
theorem test_status :
    (inState .setShort).statusRead 0 = 0x000 ∧
      { inState .probe with lastExc := .synchronizationLoss }.statusRead 0 = 0x022 ∧
      { inState .run with lastExc := .badDigit }.statusRead 0 = 0x064 ∧
      { inState .run with cfgRaw := true }.statusRead 0 = 0x00C ∧
      { inState .closed with lastExc := .userCancellation, cfgRaw := true }.statusRead 0 = 0x0BD ∧
      { inState .failed with lastExc := .streamFailure, failCmd := .read }.statusRead 0 = 0x296 ∧
      { inState .failed with lastExc := .streamFailure, failCmd := .setTimeout }.statusRead 0 = 0x196 := by decide

/-! ## Witnesses: a concrete state and operands that meet the hypotheses of each statement -/

/-- The state a response is fed to receives it. -/
theorem receives_answered (f : FsmState) (r : Response) (h : f.terminal = false) :
    (answered (inState f) r).Receives r [] := ⟨rfl, h, false, rfl⟩

/-- A V DC frame, scenario A of 95_test_vectors.md L1-7. -/
def demoFrame : Frame := ⟨0x58, 0x0C, 0x00, 0x30, 0x31, 0x32, 0x33, 0x34⟩

/-- RESET asserted, with a CANCEL and a response beside it. -/
def resetInput : Input := { reset := true, rawMode := true, cancel := true, resp := some .fail }

/-- Nothing asserted and no response. -/
def idleInput : Input := { reset := false, rawMode := true, cancel := false, resp := none }

theorem witness_ResetLoadsEveryRegister :
    (fed { inState .failed with inReset := true } idleInput).supply = [idleInput] ∧ idleInput.reset = false ∧
      { inState .failed with inReset := true }.inReset = true ∧ idleInput.cancel = false ∧ idleInput.resp = none := by
  decide

theorem witness_ResetAssertedThenDeasserted :
    ((fed (inState .run) resetInput).supply = [resetInput] ∧ resetInput.reset = true) ∧
      ((fed { inState .setShort with inReset := true } idleInput).supply = [idleInput] ∧ idleInput.reset = false ∧
        (fed { inState .setShort with inReset := true } idleInput).inReset = true ∧ idleInput.cancel = false ∧
        idleInput.resp = none) := by decide

theorem witness_ResetThenCancelThenResponse :
    (resetInput.reset = true ∨ (inState .run).inReset = true) ∧
      (idleInput.reset = true ∨ { inState .run with inReset := true }.inReset = true) ∧
      (Input.cancellation.reset = false ∧ (inState .run).inReset = false ∧ (inState .run).fsm.terminal = false ∧
        Input.cancellation.cancel = true) ∧
      ((answered (inState .closed) .fail).supply = [Input.respond .fail] ∧ (Input.respond .fail).reset = false ∧
        (answered (inState .closed) .fail).inReset = false ∧ (answered (inState .closed) .fail).fsm = .closed) := by
  decide

theorem witness_ShortTimeoutAcknowledged :
    (answered (inState .setShort) .ack).Receives .ack [] ∧ (answered (inState .setShort) .ack).fsm = .setShort :=
  ⟨receives_answered _ _ rfl, rfl⟩

/-- 16 bytes and none. -/
theorem witness_JunkReadDiscarded :
    ((answered (inState .junk) (.data (someBytes 16))).Receives (.data (someBytes 16)) [] ∧
        (someBytes 16).length ≤ 16) ∧
      ((answered (inState .junk) (.data [])).Receives (.data []) [] ∧ ([] : List Byte).length ≤ 16) ∧
      (inState .junk).fsm = .junk :=
  ⟨⟨receives_answered _ _ rfl, by decide⟩, ⟨receives_answered _ _ rfl, by decide⟩, rfl⟩

/-- 7 bytes and none, with SYNC_RETRY at its maximum in the first. -/
theorem witness_ShortProbeRetries :
    (answered { inState .probe with syncRetry := 0xFFFFFFFF } (.data (someBytes 7))).Receives
        (.data (someBytes 7)) [] ∧ (someBytes 7).length < 8 ∧
      (answered (inState .probe) (.data [])).Receives (.data []) [] ∧ ([] : List Byte).length < 8 ∧
      (inState .probe).fsm = .probe :=
  ⟨⟨rfl, rfl, false, rfl⟩, by decide, receives_answered _ _ rfl, by decide, rfl⟩

theorem witness_FullProbeAligns :
    (answered (inState .probe) (.data (someBytes 8))).Receives (.data (someBytes 8)) [] ∧
      (inState .probe).fsm = .probe ∧ (someBytes 8).length = 8 :=
  ⟨receives_answered _ _ rfl, rfl, rfl⟩

theorem witness_LongTimeoutAcknowledged :
    (answered (inState .setLong) .ack).Receives .ack [] ∧ (answered (inState .setLong) .ack).fsm = .setLong :=
  ⟨receives_answered _ _ rfl, rfl⟩

/-- 7 bytes and none, with RESYNC_COUNT at its maximum in the first. -/
theorem witness_ShortReadInRunLosesSynchronization :
    (answered { inState .run with resyncCount := 0xFFFFFFFF } (.data (someBytes 7))).Receives
        (.data (someBytes 7)) [] ∧ (someBytes 7).length < 8 ∧
      (answered (inState .run) (.data [])).Receives (.data []) [] ∧ ([] : List Byte).length < 8 ∧
      (inState .run).fsm = .run :=
  ⟨⟨rfl, rfl, false, rfl⟩, by decide, receives_answered _ _ rfl, by decide, rfl⟩

theorem witness_FullReadInRunEmitsOneRecord :
    (answered (inState .run) (.data (frameBytes demoFrame))).Receives (.data (frameBytes demoFrame)) [] ∧
      (inState .run).fsm = .run :=
  ⟨receives_answered _ _ rfl, rfl⟩

theorem witness_StreamFailureIsFatal :
    (answered (inState .setLong) .fail).Receives .fail [] ∧ (answered (inState .run) .fail).Receives .fail [] ∧
      (∃ t, Sys2Proof.core.run 2 (answered (inState .run) .fail) = .next t) :=
  ⟨receives_answered _ _ rfl, receives_answered _ _ rfl, _, rfl⟩

theorem witness_CancellationClosesStream :
    (fed (inState .run) Input.cancellation).supply = [Input.cancellation] ∧ Input.cancellation.reset = false ∧
      (inState .run).inReset = false ∧ (inState .run).fsm.terminal = false ∧ Input.cancellation.cancel = true ∧
      (∃ t, Sys2Proof.core.run 2 (fed (inState .run) Input.cancellation) = .next t) :=
  ⟨rfl, rfl, rfl, rfl, rfl, _, rfl⟩

theorem witness_TerminalUntilReset :
    (answered (inState .failed) .ack).inReset = false ∧ (answered (inState .failed) .ack).fsm.terminal = true ∧
      (answered (inState .closed) .ack).fsm.terminal = true ∧
      ∀ i ∈ (answered (inState .failed) .ack).inputs ++ (answered (inState .failed) .ack).repeating, i.reset = false := by decide

/-- READ(16) admits 16 bytes and not 17, READ(8) admits 8 and not 9, SET_TIMEOUT admits Ack and not Data. -/
theorem witness_AdmissibleInputsHaveAStep :
    (answered (inState .junk) (.data (someBytes 16))).Receives (.data (someBytes 16)) [] ∧
      (answered (inState .junk) (.data (someBytes 17))).Receives (.data (someBytes 17)) [] ∧
      admits .junk (.data (someBytes 16)) = true ∧ admits .junk (.data (someBytes 17)) = false ∧
      admits .run (.data (someBytes 8)) = true ∧ admits .run (.data (someBytes 9)) = false ∧
      admits .setLong .ack = true ∧ admits .setLong (.data []) = false ∧
      (fed (inState .probe) Input.cancellation).supply = [Input.cancellation] ∧
      (inState .probe).inReset = false ∧ (inState .probe).fsm.terminal = false :=
  ⟨receives_answered _ _ rfl, receives_answered _ _ rfl, by decide, by decide, by decide, by decide, rfl, rfl, rfl,
    rfl, rfl⟩

theorem witness_NoInputNoChange :
    (inState .run).supply = [] ∧
      (fed (inState .run) idleInput).supply = [idleInput] ∧ idleInput.reset = false ∧
      (fed (inState .run) idleInput).inReset = false ∧ idleInput.cancel = false ∧ idleInput.resp = none := by decide

/-- A 16-byte junk read, short probes of 0 and 7 bytes, and a full probe. -/
theorem witness_SynchronizeRun :
    let s : State := { inState .setShort with
      inputs := [Input.respond .ack, Input.respond (.data (someBytes 16)), Input.respond (.data []),
        Input.respond (.data (someBytes 7)), Input.respond (.data (someBytes 8)), Input.respond .ack,
        Input.cancellation] }
    s.inReset = false ∧ s.fsm = .setShort ∧ s.commands = [] ++ [.setTimeout s.params.tShort] ∧
      (someBytes 16).length ≤ 16 ∧ (∀ b ∈ [[], someBytes 7], b.length < 8) ∧ (someBytes 8).length = 8 ∧
      s.inputs = [Input.respond .ack, Input.respond (.data (someBytes 16))] ++
        [[], someBytes 7].map (fun b => Input.respond (.data b)) ++
        [Input.respond (.data (someBytes 8)), Input.respond .ack] ++ [Input.cancellation] := by decide

theorem witness_ProbeRetryIsUnbounded :
    let s : State := { inState .probe with
      inputs := [Input.respond (.data []), Input.respond (.data (someBytes 7)), Input.cancellation] }
    s.inReset = false ∧ s.fsm = .probe ∧ (∀ b ∈ [[], someBytes 7], b.length < 8) ∧
      s.inputs = [[], someBytes 7].map (fun b => Input.respond (.data b)) ++ [Input.cancellation] := by decide

theorem witness_ResynchronisedFramesAreEmittedInOrder :
    let s : State := { inState .run with
      inputs := [Input.respond (.data (someBytes 7)), Input.respond .ack, Input.respond (.data (someBytes 16)),
        Input.respond (.data (someBytes 7)), Input.respond (.data (someBytes 8)), Input.respond .ack,
        Input.respond (.data (frameBytes demoFrame)), Input.cancellation] }
    s.inReset = false ∧ s.fsm = .run ∧ (someBytes 7).length < 8 ∧ (someBytes 16).length ≤ 16 ∧
      (∀ b ∈ [someBytes 7], b.length < 8) ∧ (someBytes 8).length = 8 ∧
      s.inputs =
        [Input.respond (.data (someBytes 7)), Input.respond .ack, Input.respond (.data (someBytes 16))] ++
        [someBytes 7].map (fun b => Input.respond (.data b)) ++
        [Input.respond (.data (someBytes 8)), Input.respond .ack] ++
        [demoFrame].map (fun f => Input.respond (.data (frameBytes f))) ++ [Input.cancellation] := by decide

/-- Both acknowledgements, and RESET. -/
theorem witness_TimeoutWrittenByAcksOnly :
    (∃ t, step (answered (inState .setShort) .ack) = .next t ∧ t.timeoutCur = 50) ∧
      (∃ t, step (answered (inState .setLong) .ack) = .next t ∧ t.timeoutCur = 400) ∧
      (∃ t, step (fed { inState .run with timeoutCur := 400 } resetInput) = .next t ∧ t.timeoutCur = 0) :=
  ⟨⟨_, rfl, rfl⟩, ⟨_, rfl, rfl⟩, ⟨_, rfl, rfl⟩⟩

theorem witness_LastExcWrittenByEventsOnly :
    (answered (inState .run) (.data (someBytes 7))).supply = [Input.respond (.data (someBytes 7))] ∧
      (Input.respond (.data (someBytes 7))).reset = false ∧ (inState .run).inReset = false ∧
      (inState .run).fsm.terminal = false ∧
      ∃ t, step (answered (inState .run) (.data (someBytes 7))) = .next t ∧ t.lastExc = .synchronizationLoss :=
  ⟨rfl, rfl, rfl, rfl, _, rfl, rfl⟩

theorem witness_RecordsOnlyFromFullRunReads :
    ∃ t, step (answered (inState .run) (.data (frameBytes demoFrame))) = .next t ∧ t.records.length = 1 :=
  ⟨_, rfl, rfl⟩

/-- Two states that differ in CFG_RAW, LAST_EXC and the records emitted, on a frame and on a refused response. -/
theorem witness_OutputModeDoesNotSteer :
    (∀ r : Response,
      (answered (inState .run) r).withoutOutputMode =
        (answered { inState .run with cfgRaw := true, lastExc := .badDigit, records := [.unknownMode 0 0] }
          r).withoutOutputMode) ∧
      (∃ t, step (answered (inState .run) (.data (frameBytes demoFrame))) = .next t) ∧
      step (answered (inState .run) .ack) = .refused .responseOfWrongKind :=
  ⟨fun _ => rfl, ⟨_, rfl⟩, rfl⟩

theorem witness_StatusRegistersDoNotSteer :
    (∀ r : Response,
      (answered (inState .run) r).withoutStatus =
        (answered { inState .run with timeoutCur := 7, syncRetry := 1, resyncCount := 2, lastExc := .badDigit }
          r).withoutStatus) ∧
      (∃ t, step (answered (inState .run) (.data (frameBytes demoFrame))) = .next t) ∧
      step (answered (inState .run) .ack) = .refused .responseOfWrongKind :=
  ⟨fun _ => rfl, ⟨_, rfl⟩, rfl⟩

theorem witness_RomAndOutputModeFixedWhileRunning :
    ∃ t, step (fed (inState .run) resetInput) = .next t ∧ t.cfgRaw = true := ⟨_, rfl, rfl⟩

/-- A state of ST_RUN that meets the invariant, with a frame to take. -/
theorem witness_EveryStepKeepsTheInvariant :
    (answered { inState .run with timeoutCur := 400, commands := [.read 8] } (.data (frameBytes demoFrame))).Inv ∧
      ∃ t, step (answered { inState .run with timeoutCur := 400, commands := [.read 8] }
        (.data (frameBytes demoFrame))) = .next t := by
  refine ⟨?_, _, rfl⟩
  constructor <;> decide

theorem witness_ResetMeetsTheInvariant : demoRom.wf = true := test_wf_demoRom

/-- The lowest and the highest index of each range. -/
theorem witness_ExtractorReadsTheBits : (0 < 8 ∧ 7 < 8) ∧ (0 < 9 ∧ 8 < 9) := by decide

/-- The smallest and the largest magnitude. -/
theorem witness_DigitsCheckAndMagnitude :
    checkDig (extractDig ⟨0, 0, 0, 0x30, 0x30, 0x30, 0x30, 0x30⟩) = some ⟨0, 0, 0, 0, 0⟩ ∧
      checkDig (extractDig ⟨0, 0, 0, 0x39, 0x39, 0x39, 0x39, 0x39⟩) = some ⟨9, 9, 9, 9, 9⟩ := by decide

theorem witness_LookupFindsTheUniqueMode :
    demoRom.wf = true ∧ (demoRom.entry .vdc).key = 0x18B ∧ demoRom.lookup 0x002 = none := by decide

theorem witness_FrameDecoderIsPure :
    (inState .run).rom = { inState .run with lastExc := .badDigit, cfgRaw := true }.rom := rfl

/-- A row with every bit but its own set, and each diagnostic. -/
theorem witness_DecodeOfEncode :
    demoRom.wf = true ∧
      (Instr.ohmK ⟨true, true, false, true, true, true, true, 0x3F, 3⟩ ⟨9, 9, 9, 9, 9⟩).wf demoRom = true ∧
      (Instr.unknown 0x1FF clear ⟨0, 0, 0, 0, 0⟩).wf demoRom = true ∧
      (Instr.badDigit 0x18B clear ⟨0x30, 0x30, 0x30, 0x30, 0x2F⟩).wf demoRom = true := by decide

theorem witness_EncodeOfDecode : demoRom.wf = true := test_wf_demoRom

theorem witness_DecodeFollowsTheOpcodeTable :
    demoRom.wf = true ∧ checkDig (extractDig demoFrame) = some ⟨0, 1, 2, 3, 4⟩ ∧
      (Instr.vdc clear ⟨0, 1, 2, 3, 4⟩).mode.isSome = true := by decide

theorem witness_StepRunsTheDecodedInstruction :
    (answered (inState .run) (.data (frameBytes demoFrame))).Receives (.data (frameBytes demoFrame)) [] ∧
      (inState .run).fsm = .run ∧
      decode (inState .run).rom (inState .run).cfgRaw (frameBytes demoFrame) = .ok (.vdc clear ⟨0, 1, 2, 3, 4⟩) ∧
      decode (inState .setShort).rom (inState .setShort).cfgRaw (wordBytes 64 0x3433323130000C58) =
        .ok (.vdc clear ⟨0, 1, 2, 3, 4⟩) :=
  ⟨receives_answered _ _ rfl, rfl, rfl, rfl⟩

theorem witness_StatusPortReadsTheRegisters : 3 < 4 := by decide

theorem witness_VacFramesMeasure :
    (inState .run).rom.wf = true ∧
      (clear.alt = false) ∧
      ({ clear with alt := true }.alt = true) ∧
      extractKey (extractBf ⟨0x00, 0x08, 0x00, 0x39, 0x39, 0x39, 0x39, 0x39⟩) = (inState .run).rom.vac.key ∧
      checkDig (extractDig ⟨0x08, 0x00, 0x00, 0x39, 0x39, 0x39, 0x39, 0x39⟩) = some ⟨9, 9, 9, 9, 9⟩ := by decide

theorem witness_PctFramesMeasure :
    (inState .run).rom.wf = true ∧
      (clear.cap = false) ∧
      ({ clear with cap := true }.cap = true ∧ { clear with cap := true }.sel2 = false) ∧
      ({ clear with cap := true, sel2 := true }.cap = true ∧ { clear with cap := true, sel2 := true }.sel2 = true) ∧
      extractKey (extractBf ⟨0x08, 0x08, 0x00, 0x39, 0x39, 0x39, 0x39, 0x39⟩) = (inState .run).rom.pct.key ∧
      checkDig (extractDig ⟨0x08, 0x00, 0x00, 0x39, 0x39, 0x39, 0x39, 0x39⟩) = some ⟨9, 9, 9, 9, 9⟩ := by decide

theorem witness_MvdcFramesMeasure :
    (inState .run).rom.wf = true ∧
      (clear.alt = false) ∧
      ({ clear with alt := true }.alt = true) ∧
      extractKey (extractBf ⟨0x10, 0x08, 0x00, 0x39, 0x39, 0x39, 0x39, 0x39⟩) = (inState .run).rom.mvdc.key ∧
      checkDig (extractDig ⟨0x08, 0x00, 0x00, 0x39, 0x39, 0x39, 0x39, 0x39⟩) = some ⟨9, 9, 9, 9, 9⟩ := by decide

theorem witness_NfFramesMeasure :
    (inState .run).rom.wf = true ∧
      (clear.sel2 = false) ∧
      ({ clear with sel2 := true }.sel2 = true) ∧
      extractKey (extractBf ⟨0x18, 0x08, 0x00, 0x39, 0x39, 0x39, 0x39, 0x39⟩) = (inState .run).rom.nf.key ∧
      checkDig (extractDig ⟨0x08, 0x00, 0x00, 0x39, 0x39, 0x39, 0x39, 0x39⟩) = some ⟨9, 9, 9, 9, 9⟩ := by decide

theorem witness_VdcFramesMeasure :
    (inState .run).rom.wf = true ∧
      (clear.alt = false) ∧
      ({ clear with alt := true }.alt = true) ∧
      extractKey (extractBf ⟨0x58, 0x0C, 0x00, 0x39, 0x39, 0x39, 0x39, 0x39⟩) = (inState .run).rom.vdc.key ∧
      checkDig (extractDig ⟨0x08, 0x00, 0x00, 0x39, 0x39, 0x39, 0x39, 0x39⟩) = some ⟨9, 9, 9, 9, 9⟩ := by decide

theorem witness_OhmFramesMeasure :
    (inState .run).rom.wf = true ∧
      (clear.sel1 = false ∧ clear.sel2 = false) ∧
      ({ clear with sel1 := true }.sel1 = true ∧ { clear with sel1 := true }.sel2 = false) ∧
      ({ clear with sel1 := true, sel2 := true }.sel2 = true) ∧
      extractKey (extractBf ⟨0x08, 0x00, 0x00, 0x39, 0x39, 0x39, 0x39, 0x39⟩) = (inState .run).rom.ohm.key ∧
      checkDig (extractDig ⟨0x08, 0x00, 0x00, 0x39, 0x39, 0x39, 0x39, 0x39⟩) = some ⟨9, 9, 9, 9, 9⟩ := by decide

theorem witness_UaacFramesMeasure :
    (inState .run).rom.wf = true ∧
      extractKey (extractBf ⟨0x38, 0x08, 0x00, 0x39, 0x39, 0x39, 0x39, 0x39⟩) = (inState .run).rom.uaac.key ∧
      checkDig (extractDig ⟨0x08, 0x00, 0x00, 0x39, 0x39, 0x39, 0x39, 0x39⟩) = some ⟨9, 9, 9, 9, 9⟩ := by decide

theorem witness_DbmFramesMeasure :
    (inState .run).rom.wf = true ∧
      (clear.sign = false) ∧
      ({ clear with sign := true }.sign = true) ∧
      extractKey (extractBf ⟨0x40, 0x08, 0x00, 0x39, 0x39, 0x39, 0x39, 0x39⟩) = (inState .run).rom.dbm.key ∧
      checkDig (extractDig ⟨0x08, 0x00, 0x00, 0x39, 0x39, 0x39, 0x39, 0x39⟩) = some ⟨9, 9, 9, 9, 9⟩ := by decide

theorem witness_MvacFramesMeasure :
    (inState .run).rom.wf = true ∧
      (clear.alt = false) ∧
      ({ clear with alt := true }.alt = true) ∧
      extractKey (extractBf ⟨0x50, 0x08, 0x00, 0x39, 0x39, 0x39, 0x39, 0x39⟩) = (inState .run).rom.mvac.key ∧
      checkDig (extractDig ⟨0x08, 0x00, 0x00, 0x39, 0x39, 0x39, 0x39, 0x39⟩) = some ⟨9, 9, 9, 9, 9⟩ := by decide

theorem witness_UnrewrittenModesMeasure :
    (inState .run).rom.wf = true ∧
      extractKey (extractBf ⟨0x30, 0x08, 0x00, 0x39, 0x39, 0x39, 0x39, 0x39⟩) = (inState .run).rom.mvacdc.key ∧
      extractKey (extractBf ⟨0x48, 0x08, 0x00, 0x39, 0x39, 0x39, 0x39, 0x39⟩) = (inState .run).rom.vf.key ∧
      extractKey (extractBf ⟨0x58, 0x08, 0x00, 0x39, 0x39, 0x39, 0x39, 0x39⟩) = (inState .run).rom.uadc.key ∧
      extractKey (extractBf ⟨0x60, 0x08, 0x00, 0x39, 0x39, 0x39, 0x39, 0x39⟩) = (inState .run).rom.adc.key ∧
      extractKey (extractBf ⟨0x68, 0x08, 0x00, 0x39, 0x39, 0x39, 0x39, 0x39⟩) = (inState .run).rom.hz.key ∧
      extractKey (extractBf ⟨0x70, 0x08, 0x00, 0x39, 0x39, 0x39, 0x39, 0x39⟩) = (inState .run).rom.uaacdc.key ∧
      checkDig (extractDig ⟨0x08, 0x00, 0x00, 0x39, 0x39, 0x39, 0x39, 0x39⟩) = some ⟨9, 9, 9, 9, 9⟩ := by decide

theorem witness_UnknownKeyReportsUnknownMode :
    checkDig (extractDig ⟨0x10, 0x00, 0x00, 0x39, 0x39, 0x39, 0x39, 0x39⟩) = some ⟨9, 9, 9, 9, 9⟩ ∧
      ∀ m, ((inState .run).rom.entry m).key ≠ extractKey (extractBf ⟨0x10, 0x00, 0x00, 0x39, 0x39, 0x39, 0x39, 0x39⟩) := by
  refine ⟨by decide, fun m => ?_⟩
  cases m <;> decide

/-- The bytes on both sides of the digits' range, in the first and in the last place; and a frame of digits. -/
theorem witness_BadDigitComesFirst :
    (∃ x ∈ ([0x2F, 0x30, 0x30, 0x30, 0x30] : List Byte), x.toNat < 0x30 ∨ 0x39 < x.toNat) ∧
      (∃ x ∈ ([0x30, 0x30, 0x30, 0x30, 0x3A] : List Byte), x.toNat < 0x30 ∨ 0x39 < x.toNat) ∧
      (∀ x ∈ ([0x30, 0x39, 0x30, 0x39, 0x30] : List Byte), 0x30 ≤ x.toNat ∧ x.toNat ≤ 0x39) := by decide

/-- A state whose environment repeats two short probe responses, of 0 and 7 bytes. -/
def probedForever : State :=
  { inState .probe with repeating := [[], someBytes 7].map (fun b => Input.respond (.data b)) }

theorem witness_ProbeRetryRunsForever :
    probedForever.inReset = false ∧ probedForever.fsm = .probe ∧ probedForever.inputs = [] ∧
      [[], someBytes 7] ≠ [] ∧ (∀ b ∈ [[], someBytes 7], b.length < 8) ∧
      probedForever.repeating = [[], someBytes 7].map (fun b => Input.respond (.data b)) ∧
      ∀ n : Nat, ((fun m => someBytes (m % 8)) n).length < 8 := by
  refine ⟨rfl, rfl, rfl, by decide, by decide, rfl, fun n => ?_⟩
  simpa [someBytes] using Nat.mod_lt n (by decide)

/-- The second round of the repeating responses begins once the first is used up. -/
theorem test_repeating_comes_again :
    (nextOf (Sys2Proof.core.run 3 probedForever)).map (fun t => (t.syncRetry.toNat, t.supply.length)) =
      some (3, 1) := by decide

theorem witness_SteadyStateRunsForever :
    let s : State := { inState .run with repeating := [demoFrame].map (fun f => Input.respond (.data (frameBytes f))) }
    s.inReset = false ∧ s.fsm = .run ∧ s.inputs = [] ∧ [demoFrame] ≠ [] ∧
      s.repeating = [demoFrame].map (fun f => Input.respond (.data (frameBytes f))) := by decide

theorem witness_ScalerMeetsTheSource : demoRom.wf = true := test_wf_demoRom

theorem witness_ExponentStaysInRange : demoRom.wf = true := test_wf_demoRom

theorem witness_PlainFramesFollowTheModeTable :
    (inState .run).rom.wf = true ∧ extractKey (extractBf demoFrame) = ((inState .run).rom.entry .vdc).key ∧
      checkDig (extractDig demoFrame) = some ⟨0, 1, 2, 3, 4⟩ ∧
      ∀ j ∈ [0, 1, 2, 12, 13, 14, 21], (extractBf demoFrame).getLsbD j = false := by decide

/-- Scenario A with every unused bit clear, and with every unused bit set. -/
theorem witness_UnusedBitsDoNotMatter :
    (inState .run).rom.wf = true ∧
      extractDig demoFrame = extractDig ⟨0x58, 0x8C, 0xDF, 0x30, 0x31, 0x32, 0x33, 0x34⟩ ∧
      extractBf demoFrame &&& ~~~0xDF8000 =
        extractBf ⟨0x58, 0x8C, 0xDF, 0x30, 0x31, 0x32, 0x33, 0x34⟩ &&& ~~~0xDF8000 := by decide

end Sys2Proof.Tests
end

section
/-!
SUPPORT. O25, every step keeps State.Inv: the exponent the scaler leaves has a floor, so that every record is one the
layouts allow; entering a state with a command outstanding meets the invariant; so does every transition, and every
step is one of those.
-/

namespace Sys2Proof.Machine

/-! ## The floor of the exponent -/

/-- The lowest EXP the scaler can hold beside a unit (30_encoding.md R77 and R87, with 42_scaler.md R152 to R161). -/
def expFloor : UnitLabel → Int
  | .nf => -5
  | .vAc | .vDc | .vf | .aDc | .megaOhm | .uf | .aAc | .aAcDc | .mADc => -4
  | .mvDc | .mvAc | .hz | .kiloOhm | .mAAcDc | .maAc => -3
  | .percent | .ohm | .mvAcDc | .uaAc | .dbm | .uaDc | .uaAcDc => -2

/-- EXP is at or above the floor of the current unit. -/
def Work.AboveFloor (w : Work) : Prop := expFloor w.unit ≤ w.exp

theorem expFloor_ge (u : UnitLabel) : -5 ≤ expFloor u := by
  cases u <;> decide

/-- A rewrite keeps above the floor if it lowers EXP by no more than it lowers the floor. -/
theorem Work.AboveFloor.rewrite {w : Work} {u v : UnitLabel} {de : Int} (h : w.AboveFloor) (hu : w.unit = u)
    (hde : expFloor v ≤ expFloor u + de) : (w.rewrite v de).AboveFloor := by
  subst hu
  exact hde.trans (Int.add_le_add_right h de)

theorem Work.AboveFloor.forceNonNegative {w : Work} (h : w.AboveFloor) : w.forceNonNegative.AboveFloor := h

theorem rwOhm_aboveFloor (b : Specials) {w : Work} (h : w.AboveFloor) : (rwOhm b w).AboveFloor := by
  unfold rwOhm
  split_ifs with hu
  · exact h.rewrite hu (by decide)
  · exact h.rewrite hu (by decide)
  · exact h
  · exact h

theorem rwPct_aboveFloor (b : Specials) {w : Work} (h : w.AboveFloor) : (rwPct b w).AboveFloor := by
  unfold rwPct
  split_ifs with hu
  · exact h.rewrite hu.1 (by decide)
  · exact h

theorem rwNf_aboveFloor (b : Specials) {w : Work} (h : w.AboveFloor) : (rwNf b w).AboveFloor := by
  unfold rwNf
  split_ifs with hu
  · exact h.rewrite hu.1 (by decide)
  · exact h

theorem rwVac_aboveFloor (b : Specials) {w : Work} (h : w.AboveFloor) : (rwVac b w).AboveFloor := by
  unfold rwVac
  split_ifs with hu
  · exact (h.rewrite hu (by decide)).forceNonNegative
  · exact h.forceNonNegative
  · exact h

theorem rwMvdcAlt_aboveFloor (b : Specials) {w : Work} (h : w.AboveFloor) : (rwMvdcAlt b w).AboveFloor := by
  unfold rwMvdcAlt
  split_ifs with hu
  · exact (h.rewrite hu.1 (by decide)).forceNonNegative
  · exact h

theorem rwVdcAlt_aboveFloor (b : Specials) {w : Work} (h : w.AboveFloor) : (rwVdcAlt b w).AboveFloor := by
  unfold rwVdcAlt
  split_ifs with hu
  · exact h.rewrite hu.1 (by decide)
  · exact h

theorem rwMvacAlt_aboveFloor (b : Specials) {w : Work} (h : w.AboveFloor) : (rwMvacAlt b w).AboveFloor := by
  unfold rwMvacAlt
  split_ifs with hu
  · exact h.rewrite hu.1 (by decide)
  · exact h

theorem rwVacAlt_aboveFloor (b : Specials) {w : Work} (h : w.AboveFloor) : (rwVacAlt b w).AboveFloor := by
  unfold rwVacAlt
  split_ifs with hu
  · exact h.rewrite hu.1 (by decide)
  · exact h

theorem rwDbmSign_aboveFloor (b : Specials) {w : Work} (h : w.AboveFloor) : (rwDbmSign b w).AboveFloor := by
  unfold rwDbmSign
  split_ifs with hu
  · exact (h.rewrite hu.1 (by decide)).forceNonNegative
  · exact h

theorem rwUaac_aboveFloor (b : Specials) {w : Work} (h : w.AboveFloor) : (rwUaac b w).AboveFloor := by
  unfold rwUaac
  split_ifs
  · exact h.forceNonNegative
  · exact h

theorem rewriteChain_aboveFloor (b : Specials) {w : Work} (h : w.AboveFloor) : (rewriteChain b w).AboveFloor := by
  rw [rewriteChain_eq]
  exact rwUaac_aboveFloor b <| rwDbmSign_aboveFloor b <| rwVacAlt_aboveFloor b <| rwMvacAlt_aboveFloor b <|
    rwVdcAlt_aboveFloor b <| rwMvdcAlt_aboveFloor b <| rwVac_aboveFloor b <| rwNf_aboveFloor b <|
    rwPct_aboveFloor b <| rwOhm_aboveFloor b h

theorem mul10_aboveFloor (b : Specials) {w : Work} (h : w.AboveFloor) : (mul10 b w).AboveFloor := by
  simp only [Work.AboveFloor, mul10_unit, mul10_exp] at h ⊢
  split <;> omega

theorem scaleInit_aboveFloor {t : ModeTable} (h : t.contentsOk = true) (m : Mode) :
    (scaleInit (t.entry m)).AboveFloor := by
  rw [scaleInit_entry h]
  unfold Work.AboveFloor
  cases m <;> decide

theorem scale_aboveFloor {t : ModeTable} (h : t.wf = true) (m : Mode) (b : Specials) :
    (scale (t.entry m) b).AboveFloor :=
  mul10_aboveFloor b (rewriteChain_aboveFloor b (scaleInit_aboveFloor (ModeTable.wf_iff.mp h).2 m))

/-! ## Every record the machine emits is legal -/

theorem decimalPlaces_le {w : Work} (h : w.AboveFloor) : (decimalPlaces w).toNat ≤ 5 := by
  have hexp : -5 ≤ w.exp := (expFloor_ge w.unit).trans h
  simp only [decimalPlaces, BitVec.toNat_ofNat]
  omega

theorem measurementRecord_legal {w : Work} (h : w.AboveFloor) (b : Specials) (d : Digits) :
    recordLegal (measurementRecord b d w) = true := by
  unfold measurementRecord
  split_ifs
  · rfl
  · simp [recordLegal, decimalPlaces_le h, magnitude_le]

theorem unknownMode_legal (k : ModeKey) (d : Digits) : recordLegal (.unknownMode k (parseMag d)) = true := by
  simp [recordLegal, magnitude_le]

theorem badDigit_legal (k : ModeKey) (g : BitVec 40) : recordLegal (.badDigit k g) = true := rfl

theorem rawRecord_legal (bf : BitField) (r : RawDigits) : recordLegal (rawRecord bf r) = true := by
  simp [recordLegal, rawRecord]

/-! ## States that can go on -/

/-- TIMEOUT_CUR by state (43_resync_fsm.md R195): the three timeout clauses of State.Inv in one. -/
def timeoutFits (p : Params) (ms : BitVec 16) : FsmState → Prop
  | .setShort => ms = 0 ∨ ms = p.tLong
  | .junk | .probe | .setLong => ms = p.tShort
  | .run => ms = p.tLong
  | .closed | .failed => True

theorem ne_closed_of_not_terminal {f : FsmState} (hterm : f.terminal = false) : f ≠ .closed := by
  rintro rfl
  cases hterm

theorem ne_failed_of_not_terminal {f : FsmState} (hterm : f.terminal = false) : f ≠ .failed := by
  rintro rfl
  cases hterm

/-- What State.Inv asks of a state outside reset from which the machine goes on, whatever its FSM_STATE and its
outstanding command: the part that every transition to a state with a command outstanding keeps. -/
structure State.Alive (s : State) : Prop where
  rom : s.rom.wf = true
  failCmd : s.failCmd = .none
  notCancelled : s.lastExc ≠ .userCancellation
  notFailed : s.lastExc ≠ .streamFailure
  running : s.inReset = false
  records : ∀ r ∈ s.records, recordLegal r = true

theorem State.Inv.alive {s : State} (h : s.Inv) (hreset : s.inReset = false) (hterm : s.fsm.terminal = false) :
    s.Alive where
  rom := h.rom
  failCmd := h.failCmd.mpr (ne_failed_of_not_terminal hterm)
  notCancelled hc := ne_closed_of_not_terminal hterm (h.closed.mp hc)
  notFailed hf := ne_failed_of_not_terminal hterm (h.failed.mp hf)
  running := hreset
  records := h.records

/-- TIMEOUT_CUR and the two counters are free. -/
theorem State.Alive.withStatus {s : State} (h : s.Alive) (ms : BitVec 16) (retry resync : BitVec 32) :
    ({ s with timeoutCur := ms, syncRetry := retry, resyncCount := resync } : State).Alive :=
  ⟨h.rom, h.failCmd, h.notCancelled, h.notFailed, h.running, h.records⟩

/-- The events after which the machine goes on may be reported. -/
theorem State.Alive.report {s : State} (h : s.Alive) {e : ExcCode} (hc : e ≠ .userCancellation)
    (hf : e ≠ .streamFailure) : ({ s with lastExc := e } : State).Alive :=
  ⟨h.rom, h.failCmd, hc, hf, h.running, h.records⟩

theorem State.Alive.emit {s : State} (h : s.Alive) {r : Record} (hr : recordLegal r = true) : (s.emit r).Alive :=
  ⟨h.rom, h.failCmd, h.notCancelled, h.notFailed, h.running,
    List.forall_mem_append.mpr ⟨h.records, List.forall_mem_singleton.mpr hr⟩⟩

/-- The command issued on entering a state is the last one issued (43_resync_fsm.md R181). -/
theorem enter_commands_getLast? (s : State) {f : FsmState} (hterm : f.terminal = false) :
    (s.enter f).commands.getLast? = commandOf s.params f := by
  cases f with
  | closed => cases hterm
  | failed => cases hterm
  | _ => exact List.getLast?_concat

/-- Entering a state with a command outstanding meets the invariant, if the registers fit the state entered. -/
theorem State.Alive.inv_enter {s : State} (h : s.Alive) {f : FsmState} (hterm : f.terminal = false)
    (htime : timeoutFits s.params s.timeoutCur f)
    (hretry : f = .setShort ∨ f = .junk → s.syncRetry = 0) : (s.enter f).Inv where
  rom := h.rom
  failCmd := iff_of_true h.failCmd (ne_failed_of_not_terminal hterm)
  closed := iff_of_false h.notCancelled (ne_closed_of_not_terminal hterm)
  failed := iff_of_false h.notFailed (ne_failed_of_not_terminal hterm)
  timeoutShort := by rintro (rfl | rfl | rfl) <;> exact htime
  timeoutLong := by rintro rfl; exact htime
  timeoutEntry := by rintro rfl; exact htime
  syncRetry := hretry
  held := by simp [h.running]
  outstanding _ _ := enter_commands_getLast? s hterm
  closing hf := absurd hf (ne_closed_of_not_terminal hterm)
  records := h.records

/-! ## Every transition keeps the invariant -/

/-- No clause of the invariant speaks of the inputs. -/
theorem State.Inv.withInputs {s : State} (h : s.Inv) (rest : List Input) : ({ s with inputs := rest } : State).Inv :=
  { h with }

theorem State.Inv.holdReset {s : State} (h : s.Inv) (rawMode : Bool) : (s.holdReset rawMode).Inv where
  rom := h.rom
  failCmd := by simp
  closed := by simp
  failed := by simp
  timeoutShort := by simp
  timeoutLong := by simp
  timeoutEntry := by simp
  syncRetry := by simp
  held := by simp
  outstanding := by simp
  closing := by simp
  records := h.records

theorem State.Inv.leaveReset {s : State} (h : s.Inv) (rawMode : Bool) : (s.leaveReset rawMode).Inv :=
  have alive : ({ s.resetRegisters rawMode with inReset := false } : State).Alive :=
    ⟨h.rom, rfl, by simp, by simp, rfl, h.records⟩
  alive.inv_enter rfl (.inl rfl) fun _ => rfl

theorem State.Alive.inv_cancel {s : State} (h : s.Alive) : s.cancel.Inv where
  rom := h.rom
  failCmd := by simp [h.failCmd]
  closed := by simp
  failed := by simp
  timeoutShort := by simp
  timeoutLong := by simp
  timeoutEntry := by simp
  syncRetry := by simp
  held := by simp [h.running]
  outstanding := by simp [FsmState.terminal]
  closing := by simp
  records := h.records

/-- A state with a command outstanding has a value of FAIL_CMD for its failure (43_resync_fsm.md R190). -/
theorem failCmdOf_ne_none {f : FsmState} (hterm : f.terminal = false) : failCmdOf f ≠ .none := by
  cases f with
  | closed => cases hterm
  | failed => cases hterm
  | _ => decide

theorem State.Alive.inv_streamFail {s : State} (h : s.Alive) (hterm : s.fsm.terminal = false) : s.streamFail.Inv where
  rom := h.rom
  failCmd := by simp [failCmdOf_ne_none hterm]
  closed := by simp
  failed := by simp
  timeoutShort := by simp
  timeoutLong := by simp
  timeoutEntry := by simp
  syncRetry := by simp
  held := by simp [h.running]
  outstanding := by simp [FsmState.terminal]
  closing := by simp
  records := h.records

theorem State.Alive.inv_tShortAck {s : State} (h : s.Alive) (hretry : s.syncRetry = 0) : s.tShortAck.Inv :=
  (h.withStatus s.params.tShort s.syncRetry s.resyncCount).inv_enter rfl rfl fun _ => hretry

theorem State.Alive.inv_junkDone {s : State} (h : s.Alive) (htime : s.timeoutCur = s.params.tShort) : s.junkDone.Inv :=
  h.inv_enter rfl htime (by simp)

theorem State.Alive.inv_probeShort {s : State} (h : s.Alive) (htime : s.timeoutCur = s.params.tShort) :
    s.probeShort.Inv :=
  (h.withStatus s.timeoutCur (satInc32 s.syncRetry) s.resyncCount).inv_enter rfl htime (by simp)

theorem State.Alive.inv_probeFull {s : State} (h : s.Alive) (htime : s.timeoutCur = s.params.tShort) :
    s.probeFull.Inv :=
  h.inv_enter rfl htime (by simp)

theorem State.Alive.inv_tLongAck {s : State} (h : s.Alive) : s.tLongAck.Inv :=
  (h.withStatus s.params.tLong s.syncRetry s.resyncCount).inv_enter rfl rfl (by simp)

theorem State.Alive.inv_runShort {s : State} (h : s.Alive) (htime : s.timeoutCur = s.params.tLong) (k : Nat) :
    (s.runShort k).Inv :=
  ((h.report (e := .synchronizationLoss) (by decide) (by decide)).withStatus s.timeoutCur 0
    (satInc32 s.resyncCount)).inv_enter rfl (.inr htime) fun _ => rfl

/-- Every instruction emits one legal record, reports at most a decode error, and enters ST_RUN again
(43_resync_fsm.md R189). -/
theorem State.Alive.inv_exec {s t : State} (h : s.Alive) (htime : s.timeoutCur = s.params.tLong) {i : Instr}
    (hexec : exec i s = .next t) : t.Inv := by
  obtain ⟨m, b, d, -, rfl⟩ | ⟨k, b, d, -, rfl⟩ | ⟨k, b, r, -, rfl⟩ | ⟨bf, r, -, rfl⟩ := exec_cases hexec
  · exact (h.emit (measurementRecord_legal (scale_aboveFloor h.rom m b) b d)).inv_enter rfl htime (by simp)
  · exact ((h.report (e := .unknownMode) (by decide) (by decide)).emit (unknownMode_legal k d)).inv_enter rfl htime
      (by simp)
  · exact ((h.report (e := .badDigit) (by decide) (by decide)).emit (badDigit_legal k _)).inv_enter rfl htime (by simp)
  · exact (h.emit (rawRecord_legal bf r)).inv_enter rfl htime (by simp)

/-- The step on a response in a state with a command outstanding. -/
theorem State.Inv.of_answer {s t : State} (h : s.Inv) (hreset : s.inReset = false) (hterm : s.fsm.terminal = false)
    {r : Response} (ha : answer exec r s = .next t) : t.Inv := by
  have alive := h.alive hreset hterm
  obtain ⟨hf, -, rfl⟩ | ⟨hf, -, rfl⟩ | ⟨hf, -, rfl⟩ | ⟨hf, -, rfl⟩ | ⟨-, -, rfl⟩ | ⟨hf, bytes, -, -, rfl⟩ |
    ⟨hf, f, -, hexec⟩ | ⟨-, rfl⟩ := answer_cases hterm ha
  · exact alive.inv_tShortAck (h.syncRetry (.inl hf))
  · exact alive.inv_junkDone (h.timeoutShort (.inl hf))
  · exact alive.inv_probeShort (h.timeoutShort (.inr (.inl hf)))
  · exact alive.inv_probeFull (h.timeoutShort (.inr (.inl hf)))
  · exact alive.inv_tLongAck
  · exact alive.inv_runShort (h.timeoutLong hf) bytes.length
  · exact alive.inv_exec (h.timeoutLong hf) hexec
  · exact alive.inv_streamFail hterm

/-! ## The obligation -/

/-- Settles O25, by the cases of a step: a wait or a dropped input changes no register, and every transition keeps
the invariant by its lemma above. -/
theorem everyStepKeepsTheInvariant : Obligations.EveryStepKeepsTheInvariant := by
  intro s t h hstep
  obtain ⟨-, rfl⟩ | ⟨i, rest, u, -, rfl, hcases⟩ := step_cases hstep
  · exact h
  · have hu := h.withInputs rest
    obtain ⟨-, rfl⟩ | ⟨-, -, rfl⟩ | ⟨-, -, -, rfl⟩ | ⟨-, hreset, hterm, -, rfl⟩ | ⟨-, -, -, -, -, rfl⟩ |
      ⟨-, hreset, hterm, -, r, -, ha⟩ := hcases
    · exact hu.holdReset i.rawMode
    · exact hu.leaveReset i.rawMode
    · exact hu
    · exact (hu.alive hreset hterm).inv_cancel
    · exact hu
    · exact hu.of_answer hreset hterm ha

end Sys2Proof.Machine
end

section
/-!
SUPPORT. O23, no transition reads the status registers: the outcome of a step seen through a view of the state, how
the shared answers of the resync state machine look through any view, and that every transition commutes with
State.withoutStatus.
-/

namespace Sys2Proof.Machine

/-! ## Outcomes through a view of the state -/

/-- An outcome with the next state seen through a view; a fault or a refusal is seen as it is. -/
def viewOutcome (view : State → State) : Host.Outcome State Fault Refusal → Host.Outcome State Fault Refusal
  | .next t => .next (view t)
  | .fault why => .fault why
  | .refused why => .refused why

theorem viewOutcome_next_congr {view : State → State} {s s' : State} (h : view s = view s') :
    viewOutcome view (.next s) = viewOutcome view (.next s') := congrArg Host.Outcome.next h

/-- Two outcomes that look alike end alike: next states with one view, or the same refusal. -/
theorem ends_alike_of_viewOutcome_eq {view : State → State} {o o' : Host.Outcome State Fault Refusal}
    (h : viewOutcome view o = viewOutcome view o') :
    (∀ t, o = .next t → ∃ t', o' = .next t' ∧ view t = view t') ∧ (∀ why, o = .refused why → o' = .refused why) := by
  constructor
  · rintro t rfl
    cases o' with
    | next t' => exact ⟨t', rfl, Host.Outcome.next.inj h⟩
    | fault why => cases why
    | refused why => cases h
  · rintro why rfl
    cases o' with
    | next t' => cases h
    | fault why' => cases why'
    | refused why' => cases h; rfl

/-- Which responses SET_TIMEOUT takes does not depend on the state. -/
theorem viewOutcome_answerSetTimeout {view : State → State} {s s' onAck onAck' : State}
    (hack : view onAck = view onAck') (hfail : view s.streamFail = view s'.streamFail) (r : Response) :
    viewOutcome view (answerSetTimeout onAck r s) = viewOutcome view (answerSetTimeout onAck' r s') := by
  cases r with
  | ack => exact viewOutcome_next_congr hack
  | fail => exact viewOutcome_next_congr hfail
  | data bytes => rfl
  | reserved => rfl

/-- Which responses READ(n) takes does not depend on the state. -/
theorem viewOutcome_answerRead {view : State → State} {s s' : State} (n : Nat)
    {onData onData' : List Byte → Host.Outcome State Fault Refusal}
    (hdata : ∀ bytes, viewOutcome view (onData bytes) = viewOutcome view (onData' bytes))
    (hfail : view s.streamFail = view s'.streamFail) (r : Response) :
    viewOutcome view (answerRead n onData r s) = viewOutcome view (answerRead n onData' r s') := by
  cases r with
  | data bytes =>
    simp only [answerRead]
    split
    · exact hdata bytes
    · rfl
  | fail => exact viewOutcome_next_congr hfail
  | ack => rfl
  | reserved => rfl

/-! ## The status registers left out -/

@[simp] theorem withoutStatus_fsm (s : State) : s.withoutStatus.fsm = s.fsm := rfl
@[simp] theorem withoutStatus_cfgRaw (s : State) : s.withoutStatus.cfgRaw = s.cfgRaw := rfl
@[simp] theorem withoutStatus_rom (s : State) : s.withoutStatus.rom = s.rom := rfl
@[simp] theorem withoutStatus_inReset (s : State) : s.withoutStatus.inReset = s.inReset := rfl
@[simp] theorem withoutStatus_supply (s : State) : s.withoutStatus.supply = s.supply := rfl

theorem tShortAck_withoutStatus (s : State) : s.withoutStatus.tShortAck.withoutStatus = s.tShortAck.withoutStatus := rfl
theorem junkDone_withoutStatus (s : State) : s.withoutStatus.junkDone.withoutStatus = s.junkDone.withoutStatus := rfl
theorem probeShort_withoutStatus (s : State) :
    s.withoutStatus.probeShort.withoutStatus = s.probeShort.withoutStatus := rfl
theorem probeFull_withoutStatus (s : State) : s.withoutStatus.probeFull.withoutStatus = s.probeFull.withoutStatus := rfl
theorem tLongAck_withoutStatus (s : State) : s.withoutStatus.tLongAck.withoutStatus = s.tLongAck.withoutStatus := rfl
theorem runShort_withoutStatus (s : State) (k : Nat) :
    (s.withoutStatus.runShort k).withoutStatus = (s.runShort k).withoutStatus := rfl
theorem streamFail_withoutStatus (s : State) :
    s.withoutStatus.streamFail.withoutStatus = s.streamFail.withoutStatus := rfl
theorem cancel_withoutStatus (s : State) : s.withoutStatus.cancel.withoutStatus = s.cancel.withoutStatus := rfl
theorem holdReset_withoutStatus (rawMode : Bool) (s : State) :
    (s.withoutStatus.holdReset rawMode).withoutStatus = (s.holdReset rawMode).withoutStatus := rfl
theorem leaveReset_withoutStatus (rawMode : Bool) (s : State) :
    (s.withoutStatus.leaveReset rawMode).withoutStatus = (s.leaveReset rawMode).withoutStatus := rfl

/-- An instruction's record comes from the ROM and the frame alone. -/
theorem viewStatus_exec (i : Instr) (s : State) :
    viewOutcome State.withoutStatus (exec i s.withoutStatus) = viewOutcome State.withoutStatus (exec i s) := by
  cases i with
  | unknown k b d => rfl
  | badDigit k b r => rfl
  | raw bf r => rfl
  | _ b d => rfl

theorem viewStatus_runData (s : State) (bytes : List Byte) :
    viewOutcome State.withoutStatus (runData exec s.withoutStatus bytes) =
      viewOutcome State.withoutStatus (runData exec s bytes) := by
  simp only [runData, withoutStatus_rom, withoutStatus_cfgRaw]
  obtain ⟨-, f, -, hd⟩ | ⟨-, hd⟩ := decode_cases s.rom s.cfgRaw bytes
  · simp only [hd]
    exact viewStatus_exec _ s
  · simp only [hd]
    exact viewOutcome_next_congr (runShort_withoutStatus s bytes.length)

/-- FSM_STATE selects the transition. -/
theorem viewStatus_answer (r : Response) (s : State) :
    viewOutcome State.withoutStatus (answer exec r s.withoutStatus) =
      viewOutcome State.withoutStatus (answer exec r s) := by
  have hfail := streamFail_withoutStatus s
  simp only [answer, withoutStatus_fsm]
  cases s.fsm with
  | setShort => exact viewOutcome_answerSetTimeout (tShortAck_withoutStatus s) hfail r
  | junk => exact viewOutcome_answerRead _ (fun _ => viewOutcome_next_congr (junkDone_withoutStatus s)) hfail r
  | probe =>
    refine viewOutcome_answerRead _ (fun bytes => ?_) hfail r
    split
    · exact viewOutcome_next_congr (probeShort_withoutStatus s)
    · exact viewOutcome_next_congr (probeFull_withoutStatus s)
  | setLong => exact viewOutcome_answerSetTimeout (tLongAck_withoutStatus s) hfail r
  | run => exact viewOutcome_answerRead _ (viewStatus_runData s) hfail r
  | closed => rfl
  | failed => rfl

/-- The order RESET, CANCEL, response looks at RESET as last sampled and at FSM_STATE alone. -/
theorem viewStatus_present (i : Input) (s : State) :
    viewOutcome State.withoutStatus (present exec i s.withoutStatus) =
      viewOutcome State.withoutStatus (present exec i s) := by
  unfold present
  rw [withoutStatus_inReset, withoutStatus_fsm]
  split_ifs
  · exact viewOutcome_next_congr (holdReset_withoutStatus i.rawMode s)
  · exact viewOutcome_next_congr (leaveReset_withoutStatus i.rawMode s)
  · rfl
  · exact viewOutcome_next_congr (cancel_withoutStatus s)
  · cases i.resp with
    | none => rfl
    | some r => exact viewStatus_answer r s

theorem viewStatus_step (s : State) :
    viewOutcome State.withoutStatus (step s.withoutStatus) = viewOutcome State.withoutStatus (step s) := by
  simp only [step, tick, withoutStatus_supply]
  cases s.supply with
  | nil => rfl
  | cons i rest => exact viewStatus_present i { s with inputs := rest }

/-- Settles O23: seen without the status registers, each of the two steps looks like the step from the state they
have in common. -/
theorem statusRegistersDoNotSteer : Obligations.StatusRegistersDoNotSteer := by
  intro s s' hsame
  apply ends_alike_of_viewOutcome_eq
  rw [← viewStatus_step s, hsame, viewStatus_step s']

end Sys2Proof.Machine
end

section
/-!
SUPPORT. O24, what stays fixed while the machine runs: no transition but reset writes the ROM, the timeout parameters
or CFG_RAW.
-/

namespace Sys2Proof.Machine

/-- The ROM, the timeout parameters and CFG_RAW are the same (10_state.md R23, R34). -/
structure State.SameConfig (s t : State) : Prop where
  rom : t.rom = s.rom
  params : t.params = s.params
  cfgRaw : t.cfgRaw = s.cfgRaw

/-- Emitting a record, reporting a decode error and entering ST_RUN again leave the configuration. -/
theorem exec_sameConfig {i : Instr} {s t : State} (h : exec i s = .next t) : s.SameConfig t := by
  obtain ⟨m, b, d, -, rfl⟩ | ⟨k, b, d, -, rfl⟩ | ⟨k, b, r, -, rfl⟩ | ⟨bf, r, -, rfl⟩ := exec_cases h
  · exact ⟨rfl, rfl, rfl⟩
  · exact ⟨rfl, rfl, rfl⟩
  · exact ⟨rfl, rfl, rfl⟩
  · exact ⟨rfl, rfl, rfl⟩

theorem answer_sameConfig {r : Response} {s t : State} (h : answer exec r s = .next t)
    (hterm : s.fsm.terminal = false) : s.SameConfig t := by
  obtain ⟨-, -, rfl⟩ | ⟨-, -, rfl⟩ | ⟨-, -, rfl⟩ | ⟨-, -, rfl⟩ | ⟨-, -, rfl⟩ | ⟨-, bytes, -, -, rfl⟩ |
    ⟨-, f, -, hexec⟩ | ⟨-, rfl⟩ := answer_cases hterm h
  · exact ⟨rfl, rfl, rfl⟩
  · exact ⟨rfl, rfl, rfl⟩
  · exact ⟨rfl, rfl, rfl⟩
  · exact ⟨rfl, rfl, rfl⟩
  · exact ⟨rfl, rfl, rfl⟩
  · exact ⟨rfl, rfl, rfl⟩
  · exact exec_sameConfig hexec
  · exact ⟨rfl, rfl, rfl⟩

/-- Settles O24, by the cases of a step: the two reset transitions load CFG_RAW with RAW_MODE, and every other one
leaves the configuration as it is. -/
theorem romAndOutputModeFixedWhileRunning : Obligations.RomAndOutputModeFixedWhileRunning := by
  intro s t hstep
  obtain ⟨-, rfl⟩ | ⟨i, rest, u, hsupply, rfl, hcases⟩ := step_cases hstep
  · exact ⟨rfl, rfl, .inl rfl⟩
  · obtain ⟨hreset, rfl⟩ | ⟨-, hheld, rfl⟩ | ⟨-, -, -, rfl⟩ | ⟨-, -, -, -, rfl⟩ | ⟨-, -, -, -, -, rfl⟩ |
      ⟨-, -, hterm, -, r, -, ha⟩ := hcases
    · exact ⟨rfl, rfl, .inr ⟨i, rest, hsupply, .inl hreset, rfl⟩⟩
    · exact ⟨rfl, rfl, .inr ⟨i, rest, hsupply, .inr hheld, rfl⟩⟩
    · exact ⟨rfl, rfl, .inl rfl⟩
    · exact ⟨rfl, rfl, .inl rfl⟩
    · exact ⟨rfl, rfl, .inl rfl⟩
    · obtain ⟨hrom, hparams, hraw⟩ := answer_sameConfig ha hterm
      exact ⟨hrom, hparams, .inl hraw⟩

end Sys2Proof.Machine
end

section
/-!
SUPPORT. O37, the status port: STATUS as a number, from which each of its fields is read back; the codes it shows are
legal.
-/

namespace Sys2Proof.Machine

theorem fsmCode_le (f : FsmState) : (fsmCode f).toNat ≤ 6 := by
  cases f <;> decide

theorem excCode_le (e : ExcCode) : (excCode e).toNat ≤ 5 := by
  cases e <;> decide

theorem failCode_le (c : FailCmd) : (failCode c).toNat ≤ 2 := by
  cases c <;> decide

theorem terminal_iff {f : FsmState} : f.terminal = true ↔ f = .closed ∨ f = .failed := by
  cases f <;> decide

/-- STATUS as a number: FSM_STATE from bit 0, CFG_RAW at 3, TERMINAL at 4, LAST_EXC from 5, FAIL_CMD from 8
(10_state.md R29). -/
theorem statusRead_zero_toNat (s : State) :
    (s.statusRead 0).toNat =
      (fsmCode s.fsm).toNat + 2 ^ 3 * s.cfgRaw.toNat + 2 ^ 4 * s.fsm.terminal.toNat +
        2 ^ 5 * (excCode s.lastExc).toNat + 2 ^ 8 * (failCode s.failCmd).toNat := by
  have hfsm := (fsmCode s.fsm).isLt
  have hraw := s.cfgRaw.toNat_lt
  have hterm := s.fsm.terminal.toNat_lt
  have hexc := (excCode s.lastExc).isLt
  simp only [State.statusRead, BitVec.toNat_cast, BitVec.toNat_append, BitVec.toNat_ofBool,
    BitVec.toNat_ofNat]
  rw [← Nat.shiftLeft_add_eq_or_of_lt (by omega), ← Nat.shiftLeft_add_eq_or_of_lt (by omega),
    ← Nat.shiftLeft_add_eq_or_of_lt (by omega), ← Nat.shiftLeft_add_eq_or_of_lt (by omega),
    ← Nat.shiftLeft_add_eq_or_of_lt (by omega)]
  omega

/-- A field of STATUS, read back from the number. -/
theorem statusRead_zero_field {s : State} {w : Nat} {x : BitVec w} (k : Nat)
    (h : (s.statusRead 0).toNat / 2 ^ k % 2 ^ w = x.toNat) : (s.statusRead 0).extractLsb' k w = x := by
  apply BitVec.eq_of_toNat_eq
  rw [BitVec.extractLsb'_toNat, Nat.shiftRight_eq_div_pow, h]

/-- A bit of STATUS, read back from the number. -/
theorem statusRead_zero_bit {s : State} {x : Bool} (k : Nat)
    (h : (s.statusRead 0).toNat / 2 ^ k % 2 = x.toNat) : (s.statusRead 0).getLsbD k = x := by
  rw [← BitVec.testBit_toNat, Nat.testBit_eq_decide_div_mod_eq, h]
  cases x <;> rfl

/-- Each field of STATUS by place value, and nothing above them. -/
theorem statusRead_zero_fields (s : State) :
    (s.statusRead 0).toNat / 2 ^ 0 % 2 ^ 3 = (fsmCode s.fsm).toNat ∧
      (s.statusRead 0).toNat / 2 ^ 3 % 2 = s.cfgRaw.toNat ∧
      (s.statusRead 0).toNat / 2 ^ 4 % 2 = s.fsm.terminal.toNat ∧
      (s.statusRead 0).toNat / 2 ^ 5 % 2 ^ 3 = (excCode s.lastExc).toNat ∧
      (s.statusRead 0).toNat / 2 ^ 8 % 2 ^ 2 = (failCode s.failCmd).toNat ∧ (s.statusRead 0).toNat < 2 ^ 10 := by
  have hfsm := (fsmCode s.fsm).isLt
  have hraw := s.cfgRaw.toNat_lt
  have hterm := s.fsm.terminal.toNat_lt
  have hexc := (excCode s.lastExc).isLt
  have hfail := (failCode s.failCmd).isLt
  rw [statusRead_zero_toNat]
  omega

theorem statusRead_one_toNat (s : State) : (s.statusRead 1).toNat = s.timeoutCur.toNat := by
  simp only [State.statusRead, BitVec.toNat_cast, BitVec.toNat_append]
  simp

theorem statusRead_above {n : Nat} (h : 3 < n) (s : State) : s.statusRead n = 0 := by
  match n, h with
  | _ + 4, _ => rfl

/-- Right after reset STATUS shows CFG_RAW's bit alone (10_state.md R29 with R37). -/
theorem statusRead_zero_resetWith (rawMode : Bool) (rom : ModeTable) (params : Params) :
    ((State.resetWith rawMode rom params).statusRead 0).toNat = if rawMode then 8 else 0 := by
  rw [statusRead_zero_toNat]
  cases rawMode <;> rfl

theorem statusRead_one_resetWith (rawMode : Bool) (rom : ModeTable) (params : Params) :
    (State.resetWith rawMode rom params).statusRead 1 = 0 := by
  apply BitVec.eq_of_toNat_eq
  rw [statusRead_one_toNat]
  rfl

/-- Settles O37, field by field. -/
theorem statusPortReadsTheRegisters : Obligations.StatusPortReadsTheRegisters := by
  intro s
  obtain ⟨hfsm, hraw, hterm, hexc, hfail, hlt⟩ := statusRead_zero_fields s
  have hended : (s.statusRead 0).getLsbD 4 = true ↔ s.fsm = .closed ∨ s.fsm = .failed := by
    rw [statusRead_zero_bit 4 hterm, terminal_iff]
  exact ⟨statusRead_zero_field 0 hfsm, statusRead_zero_bit 3 hraw, hended, statusRead_zero_field 5 hexc,
    statusRead_zero_field 8 hfail, hlt, statusRead_one_toNat s, rfl, rfl, fun _ h => statusRead_above h s,
    fsmCode_le s.fsm, excCode_le s.lastExc, failCode_le s.failCmd, fun _ _ => rfl,
    fun rawMode rom params => ⟨statusRead_zero_resetWith rawMode rom params,
      statusRead_one_resetWith rawMode rom params, rfl, rfl⟩⟩

end Sys2Proof.Machine
end

section
/-!
SUPPORT. O1 and O26, the state right after reset: the step that leaves reset, and the invariant of the reset state.
-/

namespace Sys2Proof.Machine

/-- The step that takes the next input. -/
theorem step_of_supply {s : State} {i : Input} {rest : List Input} (h : s.supply = i :: rest) :
    step s = present exec i { s with inputs := rest } := by
  simp only [step, tick, h]

/-- RESET no longer asserted, where it was as last sampled: whatever stands beside it is dropped (60_exceptions.md
R238). -/
theorem step_leaveReset {s : State} {i : Input} {rest : List Input} (h : s.supply = i :: rest)
    (hreset : i.reset = false) (hheld : s.inReset = true) :
    step s = .next (State.leaveReset i.rawMode { s with inputs := rest }) := by
  simp [step_of_supply h, present, hreset, hheld]

/-- Settles O1: the reset state is written out, and the step after RESET ends in leaveReset. -/
theorem resetLoadsEveryRegister : Obligations.ResetLoadsEveryRegister := by
  constructor
  · intro rawMode rom params
    exact ⟨rfl, rfl, rfl, rfl, rfl, rfl, rfl, rfl⟩
  · intro s i rest hsupply hreset hheld _ _
    exact ⟨_, step_leaveReset hsupply hreset hheld, rfl, rfl, rfl, rfl, rfl, rfl, rfl, rfl⟩

/-- The reset state is ST_SET_SHORT just entered, with TIMEOUT_CUR and SYNC_RETRY 0. -/
theorem resetWith_inv (rawMode : Bool) {rom : ModeTable} (params : Params) (hrom : rom.wf = true) :
    (State.resetWith rawMode rom params).Inv :=
  have alive : ({ State.resetWith rawMode rom params with commands := [] } : State).Alive :=
    ⟨hrom, rfl, by simp [State.resetWith], by simp [State.resetWith], rfl, by simp [State.resetWith]⟩
  alive.inv_enter rfl (.inl rfl) fun _ => rfl

/-- Settles O26: the reset state meets the invariant on every admissible ROM, and the machine's own ROM is one. -/
theorem resetMeetsTheInvariant : Obligations.ResetMeetsTheInvariant :=
  ⟨resetWith_inv false Config.defaultParams modeTable_wf,
    fun rawMode _ params hrom => resetWith_inv rawMode params hrom⟩

end Sys2Proof.Machine
end

section
/-!
SUPPORT. O21, where records come from: a response adds one to the emitted records only as a full ST_RUN read.
-/

namespace Sys2Proof.Machine

/-- What is left of an input with a response, with neither RESET nor CANCEL, is RAW_MODE. -/
theorem input_eq_of_resp {i : Input} {r : Response} (hreset : i.reset = false) (hcancel : i.cancel = false)
    (hresp : i.resp = some r) : i = { reset := false, rawMode := i.rawMode, cancel := false, resp := some r } := by
  cases i
  cases hreset
  cases hcancel
  cases hresp
  rfl

/-- A response leaves the emitted records, or it is a frame in ST_RUN and the frame's own record is appended
(20_memory.md R54, R55). -/
theorem answer_records {r : Response} {s t : State} (h : answer exec r s = .next t) (hterm : s.fsm.terminal = false) :
    t.records = s.records ∨
    s.fsm = .run ∧ ∃ f, r = .data (frameBytes f) ∧ t.records = s.records ++ [frameRecord s.rom s.cfgRaw f] := by
  obtain ⟨-, -, rfl⟩ | ⟨-, -, rfl⟩ | ⟨-, -, rfl⟩ | ⟨-, -, rfl⟩ | ⟨-, -, rfl⟩ | ⟨-, bytes, -, -, rfl⟩ |
    ⟨hf, f, hr, hexec⟩ | ⟨-, rfl⟩ := answer_cases hterm h
  · exact .inl (tShortAck_records s)
  · exact .inl (junkDone_records s)
  · exact .inl (probeShort_records s)
  · exact .inl (probeFull_records s)
  · exact .inl (tLongAck_records s)
  · exact .inl (runShort_records s bytes.length)
  · obtain ⟨e, he⟩ := exec_decodeFrame s f
    obtain rfl := Host.Outcome.next.inj (he.symm.trans hexec)
    exact .inr ⟨hf, f, hr, afterRecord_records s _⟩
  · exact .inl (streamFail_records s)

/-- Settles O21, by the cases of a step: a wait, RESET, a dropped input and CANCEL leave the records, and a response
appends one only as a full ST_RUN read. -/
theorem recordsOnlyFromFullRunReads : Obligations.RecordsOnlyFromFullRunReads := by
  intro s t hstep
  obtain ⟨-, rfl⟩ | ⟨i, rest, u, hsupply, rfl, hcases⟩ := step_cases hstep
  · exact .inl rfl
  · obtain ⟨-, rfl⟩ | ⟨-, -, rfl⟩ | ⟨-, -, -, rfl⟩ | ⟨-, -, -, -, rfl⟩ | ⟨-, -, -, -, -, rfl⟩ |
      ⟨hreset, hheld, hterm, hcancel, r, hresp, ha⟩ := hcases
    · exact .inl (holdReset_records _ i.rawMode)
    · exact .inl (leaveReset_records _ i.rawMode)
    · exact .inl rfl
    · exact .inl (cancel_records _)
    · exact .inl rfl
    · obtain hsame | ⟨hrun, f, rfl, hnew⟩ := answer_records ha hterm
      · exact .inl hsame
      · rw [input_eq_of_resp hreset hcancel hresp] at hsupply
        exact .inr ⟨_, i.rawMode, f, rest, hnew, hheld, hrun, hsupply⟩

end Sys2Proof.Machine
end

section
/-!
SUPPORT. O31, decoding gives an encoded instruction back: a frame composed for a mode decodes to the row its special
bits select, which is the row of a well-formed instruction.
-/

namespace Sys2Proof.Machine

/-- The bytes of an instruction are those of its frame. -/
theorem decode_encode (t : ModeTable) (cfgRaw : Bool) (i : Instr) :
    decode t cfgRaw (encode t i) = .ok (decodeFrame t cfgRaw (encodeFrame t i)) := by
  simp only [decode, encode, frameOfBytes_frameBytes]

theorem decodeFrame_modeFrame {t : ModeTable} (h : t.wf = true) (m : Mode) (b : Specials) (d : Digits) :
    decodeFrame t false (modeFrame t m b d) = selectRow m b d := by
  rw [decodeFrame_known h (m := m) (d := d) (by simp [modeFrame]) (by simp [modeFrame])]
  simp [modeFrame]

theorem cfgRaw_of_mode {i : Instr} {m : Mode} (hm : i.mode = some m) : i.cfgRaw = false := by
  cases i with
  | raw bf r => cases hm
  | _ => rfl

/-- A well-formed row of a mode is the one its special bits select (30_encoding.md R87), and its frame is the mode's. -/
theorem selectRow_of_wf {t : ModeTable} {i : Instr} {m : Mode} (hm : i.mode = some m) (hwf : i.wf t = true) :
    ∃ b d, encodeFrame t i = modeFrame t m b d ∧ selectRow m b d = i := by
  cases i with
  | unknown k b d => cases hm
  | badDigit k b r => cases hm
  | raw bf r => cases hm
  | _ b d =>
    cases hm
    exact ⟨b, d, rfl, by simp_all [selectRow, Instr.wf]⟩

theorem decodeFrame_encodeFrame_of_mode {t : ModeTable} (h : t.wf = true) {i : Instr} {m : Mode}
    (hm : i.mode = some m) (hwf : i.wf t = true) : decodeFrame t i.cfgRaw (encodeFrame t i) = i := by
  obtain ⟨b, d, hframe, hrow⟩ := selectRow_of_wf hm hwf
  rw [cfgRaw_of_mode hm, hframe, decodeFrame_modeFrame h, hrow]

/-- A key in no entry decodes to UNKNOWN. -/
theorem decodeFrame_composeFrame_unknown {t : ModeTable} {k : ModeKey} (hk : t.lookup k = none) (b : Specials)
    (d : Digits) : decodeFrame t false (composeFrame (composeBf k b) (digitBytes d)) = .unknown k b d := by
  simp [decodeFrame, hk]

/-- Digit bytes that fail the check decode to BADDIGIT, whatever the key. -/
theorem decodeFrame_composeFrame_badDigit (t : ModeTable) (k : ModeKey) (b : Specials) {r : RawDigits}
    (hr : checkDig r = none) : decodeFrame t false (composeFrame (composeBf k b) r) = .badDigit k b r := by
  simp [decodeFrame, hr]

theorem decodeFrame_composeFrame_raw (t : ModeTable) (bf : BitField) (r : RawDigits) :
    decodeFrame t true (composeFrame bf r) = .raw bf r := by
  simp [decodeFrame]

/-- Settles O31, by the kind of the row: the three rows outside the modes each by their own lemma, the 25 rows of the
modes by the subform that their special bits select. -/
theorem decodeOfEncode : Obligations.DecodeOfEncode := by
  intro t i h hwf
  rw [decode_encode]
  congr 1
  cases i with
  | unknown k b d => exact decodeFrame_composeFrame_unknown (Option.isNone_iff_eq_none.mp hwf) b d
  | badDigit k b r => exact decodeFrame_composeFrame_badDigit t k b (Option.isNone_iff_eq_none.mp hwf)
  | raw bf r => exact decodeFrame_composeFrame_raw t bf r
  | _ b d => exact decodeFrame_encodeFrame_of_mode h rfl hwf

end Sys2Proof.Machine
end

section
/-!
SUPPORT. O36, the record words: each word as a number, from which its fields are read back.
-/

namespace Sys2Proof.Machine

/-- A field of a word, read back from the number. -/
theorem extractLsb'_eq_of_toNat {n w : Nat} {x : BitVec n} {y : BitVec w} (k : Nat)
    (h : x.toNat / 2 ^ k % 2 ^ w = y.toNat) : x.extractLsb' k w = y := by
  apply BitVec.eq_of_toNat_eq
  rw [BitVec.extractLsb'_toNat, Nat.shiftRight_eq_div_pow, h]

/-- A bit of a word, read back from the number. -/
theorem getLsbD_eq_of_toNat {n : Nat} {x : BitVec n} {b : Bool} (k : Nat) (h : x.toNat / 2 ^ k % 2 = b.toNat) :
    x.getLsbD k = b := by
  rw [← BitVec.testBit_toNat, Nat.testBit_eq_decide_div_mod_eq, h]
  cases b <;> rfl

/-- A field put above a word, as a number. -/
theorem append_toNat {m n : Nat} (x : BitVec m) (y : BitVec n) : (x ++ y).toNat = 2 ^ n * x.toNat + y.toNat := by
  rw [BitVec.toNat_append, ← Nat.shiftLeft_add_eq_or_of_lt y.isLt, Nat.shiftLeft_eq, Nat.mul_comm]

theorem unitCode_le (u : UnitLabel) : (unitCode u).toNat ≤ 22 := by
  cases u <;> decide

theorem unitOfCode_unitCode (u : UnitLabel) : unitOfCode (unitCode u) = some u := by
  cases u <;> rfl

/-- A MEASUREMENT word as a number (30_encoding.md R81). -/
theorem recordWord_measurement_toNat (u : UnitLabel) (ovf neg : Bool) (dp : BitVec 3) (mag : Magnitude) :
    (recordWord (.measurement u ovf neg dp mag)).toNat =
      2 ^ 3 * (unitCode u).toNat + 2 ^ 8 * ovf.toNat + 2 ^ 9 * neg.toNat + 2 ^ 10 * dp.toNat + 2 ^ 13 * mag.toNat := by
  simp only [recordWord, BitVec.toNat_cast, append_toNat, BitVec.toNat_ofBool, BitVec.toNat_ofNat]
  omega

/-- An UNKNOWN_MODE word as a number (30_encoding.md R82). -/
theorem recordWord_unknownMode_toNat (k : ModeKey) (mag : Magnitude) :
    (recordWord (.unknownMode k mag)).toNat = 1 + 2 ^ 3 * k.toNat + 2 ^ 12 * mag.toNat := by
  simp only [recordWord, BitVec.toNat_cast, append_toNat, BitVec.toNat_ofNat]
  omega

/-- A BAD_DIGIT word as a number (30_encoding.md R83). -/
theorem recordWord_badDigit_toNat (k : ModeKey) (g : BitVec 40) :
    (recordWord (.badDigit k g)).toNat = 2 + 2 ^ 3 * k.toNat + 2 ^ 12 * g.toNat := by
  simp only [recordWord, BitVec.toNat_cast, append_toNat, BitVec.toNat_ofNat]
  omega

/-- A RAW word as a number (30_encoding.md R84). -/
theorem recordWord_raw_toNat (bf : BitField) (k : ModeKey) (sg : Bool) (g : BitVec 40) :
    (recordWord (.raw bf k sg g)).toNat =
      3 + 2 ^ 3 * bf.toNat + 2 ^ 27 * k.toNat + 2 ^ 36 * sg.toNat + 2 ^ 37 * g.toNat := by
  simp only [recordWord, BitVec.toNat_cast, append_toNat, BitVec.toNat_ofBool, BitVec.toNat_ofNat]
  omega

/-- The fields of the word at the places of 30_encoding.md R81, and 0 above them. -/
theorem recordWord_measurement_fields (u : UnitLabel) (ovf neg : Bool) (dp : BitVec 3) (mag : Magnitude) :
    let w := recordWord (.measurement u ovf neg dp mag)
    w.toNat < 2 ^ 30 ∧ w.extractLsb' 0 3 = 0 ∧ w.extractLsb' 3 5 = unitCode u ∧ w.getLsbD 8 = ovf ∧
      w.getLsbD 9 = neg ∧ w.extractLsb' 10 3 = dp ∧ w.extractLsb' 13 17 = mag := by
  intro w
  have hw : w.toNat = _ := recordWord_measurement_toNat u ovf neg dp mag
  have hu := (unitCode u).isLt
  have hovf := ovf.toNat_lt
  have hneg := neg.toNat_lt
  have hdp := dp.isLt
  have hmag := mag.isLt
  refine ⟨by omega, extractLsb'_eq_of_toNat 0 ?_, extractLsb'_eq_of_toNat 3 ?_, getLsbD_eq_of_toNat 8 ?_,
    getLsbD_eq_of_toNat 9 ?_, extractLsb'_eq_of_toNat 10 ?_, extractLsb'_eq_of_toNat 13 ?_⟩
  · change _ = 0
    omega
  all_goals omega

/-- The fields of the word at the places of 30_encoding.md R82, and 0 above them. -/
theorem recordWord_unknownMode_fields (k : ModeKey) (mag : Magnitude) :
    let w := recordWord (.unknownMode k mag)
    w.toNat < 2 ^ 29 ∧ w.extractLsb' 0 3 = 1 ∧ w.extractLsb' 3 9 = k ∧ w.extractLsb' 12 17 = mag := by
  intro w
  have hw : w.toNat = _ := recordWord_unknownMode_toNat k mag
  have hk := k.isLt
  have hmag := mag.isLt
  refine ⟨by omega, extractLsb'_eq_of_toNat 0 ?_, extractLsb'_eq_of_toNat 3 ?_, extractLsb'_eq_of_toNat 12 ?_⟩
  · change _ = 1
    omega
  all_goals omega

/-- The fields of the word at the places of 30_encoding.md R83, and 0 above them. -/
theorem recordWord_badDigit_fields (k : ModeKey) (g : BitVec 40) :
    let w := recordWord (.badDigit k g)
    w.toNat < 2 ^ 52 ∧ w.extractLsb' 0 3 = 2 ∧ w.extractLsb' 3 9 = k ∧ w.extractLsb' 12 40 = g := by
  intro w
  have hw : w.toNat = _ := recordWord_badDigit_toNat k g
  have hk := k.isLt
  have hg := g.isLt
  refine ⟨by omega, extractLsb'_eq_of_toNat 0 ?_, extractLsb'_eq_of_toNat 3 ?_, extractLsb'_eq_of_toNat 12 ?_⟩
  · change _ = 2
    omega
  all_goals omega

/-- The fields of the word at the places of 30_encoding.md R84, and 0 above them. -/
theorem recordWord_raw_fields (bf : BitField) (k : ModeKey) (sg : Bool) (g : BitVec 40) :
    let w := recordWord (.raw bf k sg g)
    w.toNat < 2 ^ 77 ∧ w.extractLsb' 0 3 = 3 ∧ w.extractLsb' 3 24 = bf ∧ w.extractLsb' 27 9 = k ∧
      w.getLsbD 36 = sg ∧ w.extractLsb' 37 40 = g := by
  intro w
  have hw : w.toNat = _ := recordWord_raw_toNat bf k sg g
  have hbf := bf.isLt
  have hk := k.isLt
  have hsg := sg.toNat_lt
  have hg := g.isLt
  refine ⟨by omega, extractLsb'_eq_of_toNat 0 ?_, extractLsb'_eq_of_toNat 3 ?_, extractLsb'_eq_of_toNat 27 ?_,
    getLsbD_eq_of_toNat 36 ?_, extractLsb'_eq_of_toNat 37 ?_⟩
  · change _ = 3
    omega
  all_goals omega

/-- A sink reads back the record that was sent. -/
theorem recordOfWord_recordWord (r : Record) : recordOfWord (recordWord r) = some r := by
  cases r with
  | measurement u ovf neg dp mag =>
    obtain ⟨-, hkind, hunit, hovf, hneg, hdp, hmag⟩ := recordWord_measurement_fields u ovf neg dp mag
    simp only [recordOfWord, hkind, hunit, hovf, hneg, hdp, hmag, unitOfCode_unitCode]
    rfl
  | unknownMode k mag =>
    obtain ⟨-, hkind, hk, hmag⟩ := recordWord_unknownMode_fields k mag
    simp only [recordOfWord, hkind, hk, hmag]
    rfl
  | badDigit k g =>
    obtain ⟨-, hkind, hk, hg⟩ := recordWord_badDigit_fields k g
    simp only [recordOfWord, hkind, hk, hg]
    rfl
  | raw bf k sg g =>
    obtain ⟨-, hkind, hbf, hk, hsg, hg⟩ := recordWord_raw_fields bf k sg g
    simp only [recordOfWord, hkind, hbf, hk, hsg, hg]
    rfl

/-- Settles O36: the bound of each word, and each of its fields by place value. -/
theorem recordWordsHoldTheirFields : Obligations.RecordWordsHoldTheirFields := by
  refine ⟨recordOfWord_recordWord, fun u ovf neg dp mag => ?_, fun k mag => ?_, fun k g => ?_, fun bf k sg g => ?_⟩
  · obtain ⟨hlt, hkind, hunit, -⟩ := recordWord_measurement_fields u ovf neg dp mag
    exact ⟨hlt, hkind, hunit ▸ unitCode_le u⟩
  · obtain ⟨hlt, hkind, -⟩ := recordWord_unknownMode_fields k mag
    exact ⟨hlt, hkind⟩
  · obtain ⟨hlt, hkind, -⟩ := recordWord_badDigit_fields k g
    exact ⟨hlt, hkind⟩
  · obtain ⟨hlt, hkind, -⟩ := recordWord_raw_fields bf k sg g
    exact ⟨hlt, hkind⟩

end Sys2Proof.Machine
end

section
/-!
SUPPORT. O33, the opcode table's masks and matches: a row's pattern is its mode's key and the bits of its subform, and
those are the bits on which the decoder selects the row.
-/

namespace Sys2Proof.Machine

/-- The bits outside the key that a mode's row fixes: its mask in spec/opcode_table.json without the key. -/
def subformMask : Instr → BitField
  | .vac _ _ | .vacMadc _ _ | .mvdc _ _ | .mvdcAac _ _ | .vdc _ _ | .vdcMaacdc _ _ | .mvac _ _
  | .mvacAacdc _ _ => 0x001000
  | .pct _ _ => 0x004000
  | .pctNf _ _ | .pctUf _ _ => 0x004004
  | .nf _ _ | .nfUf _ _ | .ohmM _ _ => 0x000004
  | .ohm _ _ | .ohmK _ _ => 0x000006
  | .dbm _ _ | .dbmMaac _ _ => 0x200000
  | .mvacdc _ _ | .uaac _ _ | .vf _ _ | .uadc _ _ | .adc _ _ | .hz _ _ | .uaacdc _ _ | .unknown _ _ _
  | .badDigit _ _ _ | .raw _ _ => 0

/-- The values a mode's row fixes them at: its match in spec/opcode_table.json without the key. -/
def subformMatch : Instr → BitField
  | .vacMadc _ _ | .mvdcAac _ _ | .vdcMaacdc _ _ | .mvacAacdc _ _ => 0x001000
  | .pctNf _ _ => 0x004000
  | .pctUf _ _ => 0x004004
  | .nfUf _ _ | .ohmM _ _ => 0x000004
  | .ohmK _ _ => 0x000002
  | .dbmMaac _ _ => 0x200000
  | .vac _ _ | .pct _ _ | .mvdc _ _ | .nf _ _ | .vdc _ _ | .ohm _ _ | .mvacdc _ _ | .uaac _ _ | .dbm _ _ | .vf _ _
  | .mvac _ _ | .uadc _ _ | .adc _ _ | .hz _ _ | .uaacdc _ _ | .unknown _ _ _ | .badDigit _ _ _ | .raw _ _ => 0

/-- A mode's row has the key's mask (30_encoding.md R71) and its subform's. -/
theorem rowMask_eq_of_mode {i : Instr} {m : Mode} (hm : i.mode = some m) :
    rowMask i = (0x000FF8 : BitField) ||| subformMask i := by
  cases i with
  | unknown k b d => cases hm
  | badDigit k b r => cases hm
  | raw bf r => cases hm
  | _ b d =>
    simp only [rowMask, subformMask]
    decide

/-- A mode's row has the mode's key in its place and its subform's values. -/
theorem rowMatch_eq_of_mode (t : ModeTable) {i : Instr} {m : Mode} (hm : i.mode = some m) :
    rowMatch t i = (t.entry m).key.setWidth 24 <<< 3 ||| subformMatch i := by
  cases i with
  | unknown k b d => cases hm
  | badDigit k b r => cases hm
  | raw bf r => cases hm
  | _ b d =>
    cases hm
    simp [rowMatch, subformMatch, ModeTable.entry]

/-- A subform fixes no bit of the key. -/
theorem subformMask_and_key (i : Instr) : (0x000FF8 : BitField) &&& subformMask i = 0 := by
  cases i <;> simp only [subformMask] <;> decide

/-- A subform gives values to the bits of its mask only. -/
theorem subformMatch_and_mask (i : Instr) : subformMatch i &&& subformMask i = subformMatch i := by
  cases i <;> simp only [subformMask, subformMatch] <;> decide

/-- A pattern over two masks without a bit in common is met where it is met under each. -/
theorem and_or_eq_or_iff {w : Nat} {x m n v u : BitVec w} (hmn : m &&& n = 0) (hv : v &&& m = v) (hu : u &&& n = u) :
    x &&& (m ||| n) = v ||| u ↔ x &&& m = v ∧ x &&& n = u := by
  simp only [BitVec.eq_of_getElem_eq_iff, BitVec.getElem_and, BitVec.getElem_or, BitVec.ofNat_eq_ofNat,
    BitVec.getElem_zero] at *
  rw [← forall₂_and]
  refine forall₂_congr fun j hj => ?_
  have hmn := hmn j hj
  have hv := hv j hj
  have hu := hu j hj
  generalize x[j] = a, m[j] = b, n[j] = c, v[j] = d, u[j] = e at *
  revert a b c d e
  decide

/-- The key bits of a BitField, in their place (30_encoding.md R71). -/
theorem and_keyMask (bf : BitField) : bf &&& (0x000FF8 : BitField) = (extractKey bf).setWidth 24 <<< 3 := by
  apply BitVec.eq_of_getLsbD_eq
  intro i hi
  interval_cases i <;> simp [extractKey]

/-- The key is read back from its place. -/
theorem extractKey_shifted (k : ModeKey) : extractKey (k.setWidth 24 <<< 3) = k := by
  apply BitVec.eq_of_toNat_eq
  have := k.isLt
  simp only [extractKey, BitVec.extractLsb'_toNat, BitVec.toNat_shiftLeft, BitVec.toNat_setWidth,
    Nat.shiftRight_eq_div_pow, Nat.shiftLeft_eq]
  omega

/-- Under the key's mask a BitField is a key in its place exactly where that is its own key. -/
theorem and_keyMask_eq_iff {bf : BitField} {k : ModeKey} :
    bf &&& (0x000FF8 : BitField) = k.setWidth 24 <<< 3 ↔ extractKey bf = k := by
  rw [and_keyMask]
  constructor
  · intro h
    rw [← extractKey_shifted (extractKey bf), h, extractKey_shifted]
  · rintro rfl
    rfl

/-- A frame meets a mode's row where it has the mode's key and, at the bits of the subform, its values. -/
theorem and_rowMask_eq_iff (t : ModeTable) {i : Instr} {m : Mode} (hm : i.mode = some m) {bf : BitField} :
    bf &&& rowMask i = rowMatch t i ↔ extractKey bf = (t.entry m).key ∧ bf &&& subformMask i = subformMatch i := by
  rw [rowMask_eq_of_mode hm, rowMatch_eq_of_mode t hm, ← and_keyMask_eq_iff]
  refine and_or_eq_or_iff (subformMask_and_key i) ?_ (subformMatch_and_mask i)
  rw [and_keyMask, extractKey_shifted]

/-! ## The bits of the subforms -/

theorem and_sel1 (bf : BitField) : bf &&& 0x000002 = if (extractSpecials bf).sel1 then 0x000002 else 0 :=
  BitVec.and_twoPow bf 1
theorem and_sel2 (bf : BitField) : bf &&& 0x000004 = if (extractSpecials bf).sel2 then 0x000004 else 0 :=
  BitVec.and_twoPow bf 2
theorem and_alt (bf : BitField) : bf &&& 0x001000 = if (extractSpecials bf).alt then 0x001000 else 0 :=
  BitVec.and_twoPow bf 12
theorem and_cap (bf : BitField) : bf &&& 0x004000 = if (extractSpecials bf).cap then 0x004000 else 0 :=
  BitVec.and_twoPow bf 14
theorem and_sign (bf : BitField) : bf &&& 0x200000 = if (extractSpecials bf).sign then 0x200000 else 0 :=
  BitVec.and_twoPow bf 21

/-- Both bits that select among the three Ohm rows. -/
theorem and_sels (bf : BitField) : bf &&& 0x000006 = bf &&& 0x000004 ||| bf &&& 0x000002 :=
  BitVec.and_or_distrib_left (x := bf) (y := 0x000004) (z := 0x000002)

/-- Both bits that select among the capacitance rows of %. -/
theorem and_cap_sel2 (bf : BitField) : bf &&& 0x004004 = bf &&& 0x004000 ||| bf &&& 0x000004 :=
  BitVec.and_or_distrib_left (x := bf) (y := 0x004000) (z := 0x000004)

/-- The decoder selects the row whose subform the special bits meet. -/
theorem selectRow_ctorIdx_iff {i : Instr} {m : Mode} (hm : i.mode = some m) (bf : BitField) (d : Digits) :
    bf &&& subformMask i = subformMatch i ↔ (selectRow m (extractSpecials bf) d).ctorIdx = i.ctorIdx := by
  cases i with
  | unknown k b d => cases hm
  | badDigit k b r => cases hm
  | raw bf r => cases hm
  | vac _ _ | vacMadc _ _ | mvdc _ _ | mvdcAac _ _ | vdc _ _ | vdcMaacdc _ _ | mvac _ _ | mvacAacdc _ _ =>
    cases hm
    simp only [subformMask, subformMatch, selectRow, and_alt]
    cases (extractSpecials bf).alt <;> simp [Instr.ctorIdx]
  | pct _ _ =>
    cases hm
    simp only [subformMask, subformMatch, selectRow, and_cap]
    cases (extractSpecials bf).cap <;> cases (extractSpecials bf).sel2 <;> simp [Instr.ctorIdx]
  | pctNf _ _ | pctUf _ _ =>
    cases hm
    simp only [subformMask, subformMatch, selectRow, and_cap_sel2, and_cap, and_sel2]
    cases (extractSpecials bf).cap <;> cases (extractSpecials bf).sel2 <;> simp [Instr.ctorIdx]
  | nf _ _ | nfUf _ _ =>
    cases hm
    simp only [subformMask, subformMatch, selectRow, and_sel2]
    cases (extractSpecials bf).sel2 <;> simp [Instr.ctorIdx]
  | ohmM _ _ =>
    cases hm
    simp only [subformMask, subformMatch, selectRow, and_sel2]
    cases (extractSpecials bf).sel2 <;> cases (extractSpecials bf).sel1 <;> simp [Instr.ctorIdx]
  | ohm _ _ | ohmK _ _ =>
    cases hm
    simp only [subformMask, subformMatch, selectRow, and_sels, and_sel1, and_sel2]
    cases (extractSpecials bf).sel2 <;> cases (extractSpecials bf).sel1 <;> simp [Instr.ctorIdx]
  | dbm _ _ | dbmMaac _ _ =>
    cases hm
    simp only [subformMask, subformMatch, selectRow, and_sign]
    cases (extractSpecials bf).sign <;> simp [Instr.ctorIdx]
  | _ _ _ =>
    cases hm
    simp [subformMask, subformMatch, selectRow, Instr.ctorIdx]

/-! ## The row a frame decodes to -/

/-- The modes of the rows in the order of spec/opcode_table.json. -/
def rowModes : List Mode :=
  [.vac, .vac, .pct, .pct, .pct, .mvdc, .mvdc, .nf, .nf, .vdc, .vdc, .ohm, .ohm, .ohm, .mvacdc, .uaac, .dbm, .dbm,
    .vf, .mvac, .mvac, .uadc, .adc, .hz, .uaacdc]

theorem mode_eq_rowModes (i : Instr) : i.mode = rowModes[i.ctorIdx]? := by
  cases i <;> rfl

/-- The row of an instruction fixes its mode. -/
theorem mode_eq_of_ctorIdx_eq {i j : Instr} (h : i.ctorIdx = j.ctorIdx) : i.mode = j.mode := by
  rw [mode_eq_rowModes, mode_eq_rowModes, h]

/-- Only frames with a mode's key decode to one of its rows. -/
theorem extractKey_of_decodeFrame_mode {t : ModeTable} {f : Frame} {m : Mode}
    (hm : (decodeFrame t false f).mode = some m) : extractKey (extractBf f) = (t.entry m).key := by
  obtain ⟨-, hd⟩ | ⟨d, -, -, hd⟩ | ⟨d, n, -, hl, hd⟩ := decodeFrame_cases t f
  · rw [hd] at hm
    cases hm
  · rw [hd] at hm
    cases hm
  · rw [hd, selectRow_mode] at hm
    cases hm
    exact (lookup_eq_some_key hl).symm

/-- With valid digits, exactly the keys in no entry decode to UNKNOWN. -/
theorem decodeFrame_unknown_iff {t : ModeTable} {f : Frame} {d : Digits} (hd : checkDig (extractDig f) = some d) :
    t.lookup (extractKey (extractBf f)) = none ↔
      decodeFrame t false f = .unknown (extractKey (extractBf f)) (extractSpecials (extractBf f)) d := by
  constructor
  · intro hl
    simp only [decodeFrame, hd, hl]
    rfl
  · intro hu
    cases hl : t.lookup (extractKey (extractBf f)) with
    | none => rfl
    | some m =>
      have hrow : selectRow m (extractSpecials (extractBf f)) d =
          .unknown (extractKey (extractBf f)) (extractSpecials (extractBf f)) d := by
        rw [← hu]
        simp [decodeFrame, hd, hl]
      have hm := selectRow_mode m (extractSpecials (extractBf f)) d
      rw [hrow] at hm
      cases hm

/-- Settles O33: both sides ask for the key of the row's mode, and with that key the decoder selects the row by the
bits of its subform. -/
theorem decodeFollowsTheOpcodeTable : Obligations.DecodeFollowsTheOpcodeTable := by
  intro t f d h hd
  refine ⟨fun i hi => ?_, lookup_eq_none.symm.trans (decodeFrame_unknown_iff hd)⟩
  obtain ⟨m, hm⟩ := Option.isSome_iff_exists.mp hi
  rw [and_rowMask_eq_iff t hm]
  constructor
  · rintro ⟨hk, hsub⟩
    rw [decodeFrame_known h hk hd]
    exact (selectRow_ctorIdx_iff hm _ d).mp hsub
  · intro hrow
    have hk := extractKey_of_decodeFrame_mode ((mode_eq_of_ctorIdx_eq hrow).trans hm)
    rw [decodeFrame_known h hk hd] at hrow
    exact ⟨hk, (selectRow_ctorIdx_iff hm _ d).mpr hrow⟩

end Sys2Proof.Machine
end

section
/-!
SUPPORT. O54, the unused bits of a BitField: cleared, they leave the key, the bits that decoding reads, and the effect
of every decoded row.
-/

namespace Sys2Proof.Machine

/-- The bits outside the key with the unused ones of 30_encoding.md R73 cleared. -/
def clearUnused (b : Specials) : Specials := { b with unusedLow := 0, unusedHigh := 0 }

/-- The key has none of the unused bits. -/
theorem extractKey_and_used (bf : BitField) : extractKey (bf &&& ~~~0xDF8000) = extractKey bf := by
  apply BitVec.eq_of_getLsbD_eq
  intro i hi
  interval_cases i <;> simp [extractKey]

/-- Mask 0xDF8000 is the unused bits. -/
theorem extractSpecials_and_used (bf : BitField) :
    extractSpecials (bf &&& ~~~0xDF8000) = clearUnused (extractSpecials bf) := by
  simp only [extractSpecials, extractSign, clearUnused, Specials.mk.injEq]
  refine ⟨by simp, by simp, by simp, by simp, by simp, by simp, by simp, ?_, ?_⟩
  · apply BitVec.eq_of_getLsbD_eq
    intro i hi
    interval_cases i <;> simp
  · apply BitVec.eq_of_getLsbD_eq
    intro i hi
    interval_cases i <;> simp

/-- Neither the scaler nor the record reads an unused bit. -/
theorem measure_clearUnused (s : State) (m : Mode) (b : Specials) (d : Digits) :
    s.measure m (clearUnused b) d = s.measure m b d := rfl

/-- A decoded frame's effect comes from its key, the used bits outside it, and its digit bytes. -/
theorem exec_decodeFrame_congr {t : ModeTable} {f g : Frame} (hdig : extractDig f = extractDig g)
    (hkey : extractKey (extractBf f) = extractKey (extractBf g))
    (hused : clearUnused (extractSpecials (extractBf f)) = clearUnused (extractSpecials (extractBf g)))
    (s : State) : exec (decodeFrame t false f) s = exec (decodeFrame t false g) s := by
  simp only [decodeFrame, hdig, hkey]
  cases checkDig (extractDig g) with
  | none => rfl
  | some d =>
    cases t.lookup (extractKey (extractBf g)) with
    | none => rfl
    | some m =>
      change exec (selectRow m _ d) s = exec (selectRow m _ d) s
      rw [exec_selectRow, exec_selectRow, ← measure_clearUnused, hused, measure_clearUnused]

/-- Settles O54: frames that agree outside mask 0xDF8000 have the same key and the same used bits beside it; RAW
hands on the BitField itself. -/
theorem unusedBitsDoNotMatter : Obligations.UnusedBitsDoNotMatter := by
  intro s f g _ hdig hbf
  have hkey : extractKey (extractBf f) = extractKey (extractBf g) := by
    rw [← extractKey_and_used, hbf, extractKey_and_used]
  have hused : clearUnused (extractSpecials (extractBf f)) = clearUnused (extractSpecials (extractBf g)) := by
    rw [← extractSpecials_and_used, hbf, extractSpecials_and_used]
  exact ⟨exec_decodeFrame_congr hdig hkey hused s, _, _, _, rfl⟩

end Sys2Proof.Machine
end

section
/-!
SUPPORT. O34, the written-out frames: each decodes by evaluation.
-/

namespace Sys2Proof.Machine

/-- Settles O34, by evaluating the decoder on each of the six byte lists. -/
theorem writtenOutFramesDecode : Obligations.WrittenOutFramesDecode :=
  ⟨rfl, rfl, rfl, rfl, rfl, rfl⟩

end Sys2Proof.Machine
end

section
/-!
SUPPORT. O32, encoding a decoded frame gives the frame back: the row that the special bits select has those bits, and
the frame composed from the parts read out of a frame is that frame.
-/

namespace Sys2Proof.Machine

/-- The row the special bits select is well formed: they meet its subform (30_encoding.md R87). -/
theorem selectRow_wf (t : ModeTable) (m : Mode) (b : Specials) (d : Digits) : (selectRow m b d).wf t = true := by
  cases m <;> simp only [selectRow] <;> repeat' split
  all_goals simp_all [Instr.wf]

/-- Every row of a mode has the mode's frame, which keeps the special bits and the digits. -/
theorem encodeFrame_selectRow (t : ModeTable) (m : Mode) (b : Specials) (d : Digits) :
    encodeFrame t (selectRow m b d) = modeFrame t m b d := by
  cases m <;> simp only [selectRow] <;> repeat' split
  all_goals rfl

/-- A frame whose digit check answers `d` is composed of its key, the bits outside it, and the bytes of `d`. -/
theorem composeFrame_of_checkDig {f : Frame} {d : Digits} (hd : checkDig (extractDig f) = some d) :
    composeFrame (composeBf (extractKey (extractBf f)) (extractSpecials (extractBf f))) (digitBytes d) = f := by
  rw [composeBf_extract, ← checkDig_eq_some.mp hd, composeFrame_extract]

theorem encodeFrame_decodeFrame (t : ModeTable) (cfgRaw : Bool) (f : Frame) :
    encodeFrame t (decodeFrame t cfgRaw f) = f := by
  cases cfgRaw with
  | true => exact composeFrame_extract f
  | false =>
    obtain ⟨-, hi⟩ | ⟨d, hd, -, hi⟩ | ⟨d, m, hd, hl, hi⟩ := decodeFrame_cases t f
    · simp [hi, encodeFrame]
    · rw [hi]
      exact composeFrame_of_checkDig hd
    · rw [hi, encodeFrame_selectRow, modeFrame, lookup_eq_some_key hl]
      exact composeFrame_of_checkDig hd

theorem decodeFrame_wf (t : ModeTable) (cfgRaw : Bool) (f : Frame) : (decodeFrame t cfgRaw f).wf t = true := by
  cases cfgRaw with
  | true => rfl
  | false =>
    obtain ⟨hc, hi⟩ | ⟨d, -, hl, hi⟩ | ⟨d, m, -, -, hi⟩ := decodeFrame_cases t f
    · simp [hi, Instr.wf, hc]
    · simp [hi, Instr.wf, hl]
    · rw [hi, selectRow_wf]

/-- A frame decodes to a row of the output mode it is decoded in (30_encoding.md R92). -/
theorem decodeFrame_cfgRaw (t : ModeTable) (cfgRaw : Bool) (f : Frame) :
    (decodeFrame t cfgRaw f).cfgRaw = cfgRaw := by
  cases cfgRaw with
  | true => rfl
  | false =>
    obtain ⟨-, hi⟩ | ⟨d, -, -, hi⟩ | ⟨d, m, -, -, hi⟩ := decodeFrame_cases t f
    · rw [hi, Instr.cfgRaw]
    · rw [hi, Instr.cfgRaw]
    · rw [hi, cfgRaw_of_mode (selectRow_mode m _ d)]

/-- Settles O32, by what a frame decodes to in each output mode. That the ROM is admissible is not used: a row whose
key the lookup found composes the frame of that key. -/
theorem encodeOfDecode : Obligations.EncodeOfDecode := fun t cfgRaw f _ =>
  ⟨decodeFrame_wf t cfgRaw f, decodeFrame_cfgRaw t cfgRaw f,
    congrArg frameBytes (encodeFrame_decodeFrame t cfgRaw f)⟩

end Sys2Proof.Machine
end

section
/-!
SUPPORT. O27, the extractor: the BitField as a number and as bits of the three bytes, and the key as bits of the
first two.
-/

namespace Sys2Proof.Machine

theorem extractBf_toNat (f : Frame) :
    (extractBf f).toNat = f.f0.toNat + 256 * f.f1.toNat + 65536 * f.f2.toNat := by
  simp only [extractBf, BitVec.toNat_cast, append_toNat]
  omega

/-- Each bit of the BitField is a bit of the byte it lies in. -/
theorem extractBf_getLsbD (f : Frame) (j : Nat) :
    (extractBf f).getLsbD j =
      if j < 8 then f.f0.getLsbD j else if j < 16 then f.f1.getLsbD (j - 8) else f.f2.getLsbD (j - 16) := by
  have hbyte : j < 16 ↔ j - 8 < 8 := by omega
  simp only [extractBf, BitVec.getLsbD_cast, BitVec.getLsbD_append, Nat.sub_sub, hbyte]

theorem extractKey_getLsbD (bf : BitField) {j : Nat} (hj : j < 9) :
    (extractKey bf).getLsbD j = bf.getLsbD (3 + j) := by
  simp [extractKey, hj]

/-- The second formula of 40_bitfield_extract.md R104. -/
theorem extractKey_extractBf (f : Frame) :
    extractKey (extractBf f) = (f.f0.setWidth 9 >>> 3) ||| ((f.f1.setWidth 9 &&& 0x0F) <<< 5) := by
  apply BitVec.eq_of_getLsbD_eq
  intro j hj
  rw [extractKey_getLsbD _ hj, extractBf_getLsbD]
  interval_cases j <;> simp

/-- Settles O27, from the number and the bits of the BitField. -/
theorem extractorReadsTheBits : Obligations.ExtractorReadsTheBits := by
  intro f
  refine ⟨extractBf_toNat f, fun j hj => ?_, fun j hj => extractKey_getLsbD _ hj, extractKey_extractBf f,
    extractBf_getLsbD f 21, extractBf_getLsbD f 0, extractBf_getLsbD f 1, extractBf_getLsbD f 2,
    extractBf_getLsbD f 12, extractBf_getLsbD f 13, extractBf_getLsbD f 14, extractBf_getLsbD f 21⟩
  simp only [extractBf_getLsbD]
  have hbyte : 8 + j < 16 ∧ ¬ 16 + j < 8 := by omega
  simp [hj, hbyte]

end Sys2Proof.Machine
end

section
/-!
SUPPORT. O28 and O49, the digit check: which bytes are digits and what they are worth, and that a frame fails the
check exactly where it decodes to BADDIGIT.
-/

namespace Sys2Proof.Machine

theorem digitByte_toNat (d : Fin 10) : (digitByte d).toNat = 0x30 + d.val := by
  simp only [digitByte, BitVec.toNat_ofNat]
  omega

theorem digitValue_isSome {x : Byte} : (digitValue x).isSome ↔ 0x30 ≤ x.toNat ∧ x.toNat ≤ 0x39 := by
  simp [digitValue]

/-- The digit check succeeds where each of the five bytes is a digit (40_bitfield_extract.md R102). -/
theorem checkDig_isSome {r : RawDigits} :
    (checkDig r).isSome ↔ ∀ x ∈ [r.b0, r.b1, r.b2, r.b3, r.b4], (digitValue x).isSome := by
  unfold checkDig
  split
  · simp_all
  · simp_all [Option.isSome_iff_exists]

/-- The digit check of a frame, as a range for each byte (30_encoding.md R76). -/
theorem checkDig_extractDig_isSome {f : Frame} :
    (checkDig (extractDig f)).isSome ↔
      ∀ x ∈ [f.f3, f.f4, f.f5, f.f6, f.f7], 0x30 ≤ x.toNat ∧ x.toNat ≤ 0x39 := by
  simp only [checkDig_isSome, digitValue_isSome]
  rfl

/-- Settles O28: a frame that passes the check has the bytes of its digits. -/
theorem digitsCheckAndMagnitude : Obligations.DigitsCheckAndMagnitude := by
  refine fun f => ⟨checkDig_extractDig_isSome, fun d hd => ?_⟩
  have hr : extractDig f = digitBytes d := checkDig_eq_some.mp hd
  simp only [extractDig, digitBytes, RawDigits.mk.injEq] at hr
  obtain ⟨h3, h4, h5, h6, h7⟩ := hr
  refine ⟨?_, parseMag_toNat d ▸ magnitude_le d⟩
  simp only [parseMag_toNat, magnitude, h3, h4, h5, h6, h7, digitByte_toNat, Nat.add_sub_cancel_left]

/-- The digit check comes before the lookup (60_exceptions.md R239). -/
theorem decodeFrame_badDigit_of_checkDig {t : ModeTable} {f : Frame} (hc : checkDig (extractDig f) = none) :
    decodeFrame t false f = .badDigit (extractKey (extractBf f)) (extractSpecials (extractBf f)) (extractDig f) := by
  simp [decodeFrame, hc]

/-- Only a failed digit check decodes to BADDIGIT. -/
theorem checkDig_of_decodeFrame_badDigit {t : ModeTable} {f : Frame} {k : ModeKey} {b : Specials} {r : RawDigits}
    (hi : decodeFrame t false f = .badDigit k b r) : checkDig (extractDig f) = none := by
  obtain ⟨hc, -⟩ | ⟨d, -, -, hd⟩ | ⟨d, m, -, -, hd⟩ := decodeFrame_cases t f
  · exact hc
  · cases hi.symm.trans hd
  · have hm := selectRow_mode m (extractSpecials (extractBf f)) d
    rw [← hd, hi] at hm
    cases hm

/-- Settles O49: BADDIGIT's effect is that of the event, and a frame decodes to it exactly where the check fails. -/
theorem badDigitComesFirst : Obligations.BadDigitComesFirst := by
  refine fun s => ⟨fun k b r => rfl, fun f hbad => ?_, fun f hdig k b r hi => ?_, fun f => digitsField_toNat _,
    fun k g => rfl⟩
  · apply decodeFrame_badDigit_of_checkDig
    by_contra hc
    obtain ⟨x, hx, hout⟩ := hbad
    have hin := checkDig_extractDig_isSome.mp (Option.isSome_iff_ne_none.mpr hc) x hx
    omega
  · have hc := checkDig_extractDig_isSome.mpr hdig
    rw [checkDig_of_decodeFrame_badDigit hi] at hc
    cases hc

end Sys2Proof.Machine
end

section
/-!
SUPPORT. O30, the frame decoder is pure: what running a decoded frame does, for all states with one ROM at once.
-/

namespace Sys2Proof.Machine

/-- A frame emits `frameRecord`, and it either keeps LAST_EXC in every state with the ROM it is decoded by, or writes
one code to it in all of them (60_exceptions.md R248). -/
theorem exec_decodeFrame_uniform (t : ModeTable) (cfgRaw : Bool) (f : Frame) :
    (∀ s : State, s.rom = t →
      exec (decodeFrame t cfgRaw f) s = .next (s.afterRecord (frameRecord t cfgRaw f))) ∨
    ∃ e, ∀ s : State,
      exec (decodeFrame t cfgRaw f) s = .next { s.afterRecord (frameRecord t cfgRaw f) with lastExc := e } := by
  cases cfgRaw with
  | true => exact .inl fun s _ => rfl
  | false =>
    obtain ⟨hc, hi⟩ | ⟨d, hc, hl, hi⟩ | ⟨d, m, hc, hl, hi⟩ := decodeFrame_cases t f
    · simp only [hi, frameRecord, hc]
      exact .inr ⟨.badDigit, fun s => rfl⟩
    · simp only [hi, frameRecord, hc, hl]
      exact .inr ⟨.unknownMode, fun s => rfl⟩
    · simp only [hi, frameRecord, hc, hl, exec_selectRow, measure_eq_afterRecord]
      exact .inl fun s hrom => hrom ▸ rfl

/-- Settles O30, with the record that `frameRecord` names. -/
theorem frameDecoderIsPure : Obligations.FrameDecoderIsPure := by
  intro s s' f hrom
  rw [← hrom]
  obtain h | ⟨e, h⟩ := exec_decodeFrame_uniform s.rom s.cfgRaw f
  · exact ⟨_, s.lastExc, s'.lastExc, h s rfl, h s' hrom.symm, .inl ⟨rfl, rfl⟩⟩
  · exact ⟨_, e, e, h s, h s', .inr rfl⟩

end Sys2Proof.Machine
end

section
/-!
SUPPORT. O29 and O48, the lookup: the ROM's laws are the statement about the unique mode, and a key in no entry is
reported.
-/

namespace Sys2Proof.Machine

/-- Settles O29, from the ROM's laws. -/
theorem lookupFindsTheUniqueMode : Obligations.LookupFindsTheUniqueMode := by
  refine ⟨modeTable_wf, fun t k h => ?_⟩
  obtain ⟨hkeys, hcontents⟩ := ModeTable.wf_iff.mp h
  exact ⟨fun m => lookup_eq_some hkeys, lookup_eq_none, fun m n hm hn => keysDistinct_inj hkeys (hm.trans hn.symm),
    contentsOk_entry hcontents⟩

/-- UNKNOWN's whole effect: the record, LAST_EXC and READ(8) (60_exceptions.md R232). -/
theorem exec_unknown (k : ModeKey) (b : Specials) (d : Digits) (s : State) :
    exec (.unknown k b d) s = .next { s.afterRecord (.unknownMode k (parseMag d)) with lastExc := .unknownMode } := rfl

/-- Settles O48: UNKNOWN's effect is that of the event, and a frame with valid digits decodes to it where the lookup
answers none. -/
theorem unknownKeyReportsUnknownMode : Obligations.UnknownKeyReportsUnknownMode :=
  fun s => ⟨fun k b d => exec_unknown k b d s,
    fun _ _ hd hkey => (decodeFrame_unknown_iff hd).mp (lookup_eq_none.mpr hkey), fun _ _ => rfl⟩

end Sys2Proof.Machine
end

section
/-!
SUPPORT. O38 to O47 and O53, the modes' rows: what the rewrite chain leaves for each mode, said once, and with it the
whole effect of every row.
-/

namespace Sys2Proof.Machine

/-- What INIT and the rewrite chain leave for a mode: unit, EXP before MUL10, and FNN, by the special bits
(30_encoding.md R87). -/
def chainForm (m : Mode) (b : Specials) : Work :=
  match m with
  | .vac => ⟨if b.alt then .mADc else .vAc, if b.sel1 then -2 else -4, true⟩
  | .pct => if b.cap then (if b.sel2 then ⟨.uf, -4, false⟩ else ⟨.nf, -5, false⟩) else ⟨.percent, -2, false⟩
  | .mvdc => if b.alt then ⟨.aAc, -4, true⟩ else ⟨.mvDc, -3, false⟩
  | .nf => if b.sel2 then ⟨.uf, -1, false⟩ else ⟨.nf, -2, false⟩
  | .vdc => if b.alt then ⟨.mAAcDc, -3, false⟩ else ⟨.vDc, -4, false⟩
  | .ohm =>
    if b.sel2 then ⟨.megaOhm, -4, false⟩ else if b.sel1 then ⟨.kiloOhm, -3, false⟩ else ⟨.ohm, -2, false⟩
  | .mvacdc => ⟨.mvAcDc, -2, false⟩
  | .uaac => ⟨.uaAc, -2, true⟩
  | .dbm => if b.sign then ⟨.maAc, -3, true⟩ else ⟨.dbm, -2, false⟩
  | .vf => ⟨.vf, -4, false⟩
  | .mvac => if b.alt then ⟨.aAcDc, -4, false⟩ else ⟨.mvAc, -3, false⟩
  | .uadc => ⟨.uaDc, -2, false⟩
  | .adc => ⟨.aDc, -4, false⟩
  | .hz => ⟨.hz, -3, false⟩
  | .uaacdc => ⟨.uaAcDc, -2, false⟩

/-- The chain's result, by the bits that the mode's own rewrites test: every other rule finds a unit that is not its
own, whatever the bits. -/
theorem rewriteChain_entry {t : ModeTable} (h : t.wf = true) (m : Mode) (b : Specials) :
    rewriteChain b (scaleInit (t.entry m)) = chainForm m b := by
  rw [scaleInit_entry (ModeTable.wf_iff.mp h).2, rewriteChain_eq]
  obtain ⟨x10, sel1, sel2, alt, ol, cap, sign, lo, hi⟩ := b
  cases m
  case' vac => cases alt <;> cases sel1
  case' pct => cases cap <;> cases sel2
  case' nf => cases sel2
  case' ohm => cases sel2 <;> cases sel1
  case' dbm => cases sign
  case' mvdc | vdc | mvac => cases alt
  all_goals
    simp [rwOhm, rwPct, rwNf, rwVac, rwMvdcAlt, rwVdcAlt, rwMvacAlt, rwVacAlt, rwDbmSign, rwUaac, Work.rewrite,
      Work.forceNonNegative, chainForm, baseUnitOf, divExpOf]

/-- A row with its mode's effect has the whole effect that the chain's result gives it. -/
theorem exec_eq_of_chainForm {s : State} (h : s.rom.wf = true) {i : Instr} {m : Mode} {b : Specials} {d : Digits}
    (hexec : exec i s = .next (s.measure m b d)) {u : UnitLabel} {exp0 : Int} {fnn : Bool}
    (hform : chainForm m b = ⟨u, exp0, fnn⟩) :
    exec i s = .next (s.afterRecord (formRecord u exp0 fnn b d)) := by
  rw [hexec, measure_eq_afterRecord,
    measurementRecord_eq_formRecord ((rewriteChain_entry h m b).trans hform)]

/-- Settles O38: RW_VAC forces the sign and scales, and RW_VAC_ALT changes the unit alone. -/
theorem vacFramesMeasure : Obligations.VacFramesMeasure := fun s h =>
  ⟨fun b d halt => exec_eq_of_chainForm h (m := .vac) rfl (by simp [chainForm, halt]),
    fun b d halt => exec_eq_of_chainForm h (m := .vac) rfl (by simp [chainForm, halt]),
    fun _ _ hk hd => decodeFrame_known h (m := .vac) hk hd⟩

/-- Settles O39: RW_PCT makes nF, from which RW_NF goes on to uF. -/
theorem pctFramesMeasure : Obligations.PctFramesMeasure := fun s h =>
  ⟨fun b d hcap => exec_eq_of_chainForm h (m := .pct) rfl (by simp [chainForm, hcap]),
    fun b d hcap hsel2 => exec_eq_of_chainForm h (m := .pct) rfl (by simp [chainForm, hcap, hsel2]),
    fun b d hcap hsel2 => exec_eq_of_chainForm h (m := .pct) rfl (by simp [chainForm, hcap, hsel2]),
    fun _ _ hk hd => decodeFrame_known h (m := .pct) hk hd⟩

/-- Settles O40: RW_MVDC_ALT is the only rewrite, and it forces the sign. -/
theorem mvdcFramesMeasure : Obligations.MvdcFramesMeasure := fun s h =>
  ⟨fun b d halt => exec_eq_of_chainForm h (m := .mvdc) rfl (by simp [chainForm, halt]),
    fun b d halt => exec_eq_of_chainForm h (m := .mvdc) rfl (by simp [chainForm, halt]),
    fun _ _ hk hd => decodeFrame_known h (m := .mvdc) hk hd⟩

/-- Settles O41: RW_NF is the only rewrite, on bit 2. -/
theorem nfFramesMeasure : Obligations.NfFramesMeasure := fun s h =>
  ⟨fun b d hsel2 => exec_eq_of_chainForm h (m := .nf) rfl (by simp [chainForm, hsel2]),
    fun b d hsel2 => exec_eq_of_chainForm h (m := .nf) rfl (by simp [chainForm, hsel2]),
    fun _ _ hk hd => decodeFrame_known h (m := .nf) hk hd⟩

/-- Settles O42: RW_VDC_ALT is the only rewrite, and it leaves the sign. -/
theorem vdcFramesMeasure : Obligations.VdcFramesMeasure := fun s h =>
  ⟨fun b d halt => exec_eq_of_chainForm h (m := .vdc) rfl (by simp [chainForm, halt]),
    fun b d halt => exec_eq_of_chainForm h (m := .vdc) rfl (by simp [chainForm, halt]),
    fun _ _ hk hd => decodeFrame_known h (m := .vdc) hk hd⟩

/-- Settles O43: RW_OHM is the only rewrite, and it tests bit 2 before bit 1. -/
theorem ohmFramesMeasure : Obligations.OhmFramesMeasure := fun s h =>
  ⟨fun b d hsel1 hsel2 => exec_eq_of_chainForm h (m := .ohm) rfl (by simp [chainForm, hsel1, hsel2]),
    fun b d hsel1 hsel2 => exec_eq_of_chainForm h (m := .ohm) rfl (by simp [chainForm, hsel1, hsel2]),
    fun b d hsel2 => exec_eq_of_chainForm h (m := .ohm) rfl (by simp [chainForm, hsel2]),
    fun _ _ hk hd => decodeFrame_known h (m := .ohm) hk hd⟩

/-- Settles O44: RW_UAAC forces the sign whatever the bits. -/
theorem uaacFramesMeasure : Obligations.UaacFramesMeasure := fun _ h =>
  ⟨fun _ _ => exec_eq_of_chainForm h (m := .uaac) rfl rfl,
    fun _ _ hk hd => decodeFrame_known h (m := .uaac) hk hd⟩

/-- Settles O45: RW_DBM_SIGN forces the sign where the sign bit is set, so no row is negative. -/
theorem dbmFramesMeasure : Obligations.DbmFramesMeasure := fun s h =>
  ⟨fun b d hsign => exec_eq_of_chainForm h (m := .dbm) rfl (by simp [chainForm, hsign]),
    fun b d hsign => exec_eq_of_chainForm h (m := .dbm) rfl (by simp [chainForm, hsign]),
    fun _ _ hk hd => decodeFrame_known h (m := .dbm) hk hd⟩

/-- Settles O46: RW_MVAC_ALT is the only rewrite, and it leaves the sign. -/
theorem mvacFramesMeasure : Obligations.MvacFramesMeasure := fun s h =>
  ⟨fun b d halt => exec_eq_of_chainForm h (m := .mvac) rfl (by simp [chainForm, halt]),
    fun b d halt => exec_eq_of_chainForm h (m := .mvac) rfl (by simp [chainForm, halt]),
    fun _ _ hk hd => decodeFrame_known h (m := .mvac) hk hd⟩

/-- Settles O47: the chain leaves the ROM's entry whatever the bits. -/
theorem unrewrittenModesMeasure : Obligations.UnrewrittenModesMeasure := fun _ h =>
  ⟨fun _ _ => exec_eq_of_chainForm h (m := .mvacdc) rfl rfl,
    fun _ _ => exec_eq_of_chainForm h (m := .vf) rfl rfl,
    fun _ _ => exec_eq_of_chainForm h (m := .uadc) rfl rfl,
    fun _ _ => exec_eq_of_chainForm h (m := .adc) rfl rfl,
    fun _ _ => exec_eq_of_chainForm h (m := .hz) rfl rfl,
    fun _ _ => exec_eq_of_chainForm h (m := .uaacdc) rfl rfl,
    fun _ _ hk hd => decodeFrame_known h (m := .mvacdc) hk hd,
    fun _ _ hk hd => decodeFrame_known h (m := .vf) hk hd,
    fun _ _ hk hd => decodeFrame_known h (m := .uadc) hk hd,
    fun _ _ hk hd => decodeFrame_known h (m := .adc) hk hd,
    fun _ _ hk hd => decodeFrame_known h (m := .hz) hk hd,
    fun _ _ hk hd => decodeFrame_known h (m := .uaacdc) hk hd⟩

/-! ## Frames with every special bit clear -/

/-- With the bits that rewrites test clear, the chain leaves the ROM's unit and exponent: no rule but the two that
force the sign fires. -/
theorem chainForm_plain {b : Specials} (hsel1 : b.sel1 = false) (hsel2 : b.sel2 = false) (halt : b.alt = false)
    (hcap : b.cap = false) (hsign : b.sign = false) (m : Mode) :
    ∃ fnn, chainForm m b = ⟨baseUnitOf m, -((divExpOf m).toNat : Int), fnn⟩ := by
  cases m <;> simp [chainForm, baseUnitOf, divExpOf, hsel1, hsel2, halt, hcap, hsign]

/-- The Measurement of a form without OVF, sign and x10, whose decimal places fit the record's 3 bits. -/
theorem recordMeasurement_formRecord {b : Specials} (hx10 : b.x10 = false) (hol : b.ol = false)
    (hsign : b.sign = false) (u : UnitLabel) (divExp : BitVec 3) (fnn : Bool) (d : Digits) :
    recordMeasurement (formRecord u (-(divExp.toNat : Int)) fnn b d) =
      some { value := .number ((magnitude d : ℚ) / 10 ^ divExp.toNat), unit := unitText u } := by
  have hmag : (BitVec.ofNat 17 (10000 * d.d0.val + 1000 * d.d1.val + 100 * d.d2.val + 10 * d.d3.val +
      d.d4.val)).toNat = magnitude d := parseMag_toNat d
  simp [formRecord, recordMeasurement, hx10, hol, hsign, hmag]

/-- Settles O53: with the special bits clear the form is the mode's entry in the ROM. -/
theorem plainFramesFollowTheModeTable : Obligations.PlainFramesFollowTheModeTable := by
  intro s f m d h hk hd hclear
  simp only [List.forall_mem_cons] at hclear
  obtain ⟨hx10, hsel1, hsel2, halt, hol, hcap, hsign, -⟩ := hclear
  obtain ⟨fnn, hform⟩ := chainForm_plain (b := extractSpecials (extractBf f)) hsel1 hsel2 halt hcap hsign m
  rw [decodeFrame_known h hk hd]
  exact ⟨_, _, exec_eq_of_chainForm h (exec_selectRow m _ d s) hform, rfl,
    recordMeasurement_formRecord hx10 hol hsign _ _ fnn d⟩

end Sys2Proof.Machine
end

section
/-!
SUPPORT. O52, the range of EXP: the floor below it is the one of O25; above it, EXP leaves room for what the rules
still to come can add. Where the ends are reached is read off the chain's result.
-/

namespace Sys2Proof.Machine

/-! ## Room above the exponent -/

/-- How much the rules still to come can add to EXP beside a unit: RW_NF and RW_VDC_ALT add 1 (42_scaler.md R154,
R157), and RW_VAC adds `vacRoom` (R155), which is 2 until it has run and 0 after. -/
def expRoom (vacRoom : Int) : UnitLabel → Int
  | .vAc => vacRoom
  | .nf | .vDc => 1
  | _ => 0

/-- EXP stays at 0 or below whichever rule fires next. -/
def Work.HasRoom (vacRoom : Int) (w : Work) : Prop := w.exp + expRoom vacRoom w.unit ≤ 0

theorem Work.HasRoom.exp_le {vacRoom : Int} (hvac : 0 ≤ vacRoom) {w : Work} (h : w.HasRoom vacRoom) :
    w.exp ≤ 0 := by
  have hroom : 0 ≤ expRoom vacRoom w.unit := by
    unfold expRoom
    split <;> omega
  unfold Work.HasRoom at h
  omega

theorem scaleInit_hasRoom {t : ModeTable} (h : t.contentsOk = true) (m : Mode) :
    (scaleInit (t.entry m)).HasRoom 2 := by
  rw [scaleInit_entry h]
  unfold Work.HasRoom
  cases m <;> decide

/-- No rule but RW_VAC, the fourth, adds more to EXP than the unit's room, and none of them leads to V AC. -/
theorem rule_hasRoom {vacRoom : Int} (hvac : 0 ≤ vacRoom) (b : Specials) {w : Work} (h : w.HasRoom vacRoom) :
    ∀ rule ∈ rewriteRules.eraseIdx 3, (rule b w).HasRoom vacRoom := by
  simp only [rewriteRules, List.eraseIdx, List.forall_mem_cons]
  refine ⟨?_, ?_, ?_, ?_, ?_, ?_, ?_, ?_, ?_, by simp⟩
  all_goals
    simp only [rwOhm, rwPct, rwNf, rwMvdcAlt, rwVdcAlt, rwMvacAlt, rwVacAlt, rwDbmSign, rwUaac]
    split_ifs <;> simp_all [Work.HasRoom, expRoom] <;> omega

/-- RW_VAC adds at most V AC's room, and uses it up. -/
theorem rwVac_hasRoom (b : Specials) {w : Work} (h : w.HasRoom 2) : (rwVac b w).HasRoom 0 := by
  by_cases hu : w.unit = .vAc
  · simp only [Work.HasRoom, expRoom, hu] at h
    simp only [rwVac, hu, if_true]
    split_ifs <;> simp only [Work.HasRoom, forceNonNegative_unit, forceNonNegative_exp, rewrite_unit, rewrite_exp, hu,
      expRoom] <;> omega
  · have hroom : expRoom 0 w.unit = expRoom 2 w.unit := by
      cases hw : w.unit <;> simp_all [expRoom]
    rw [rwVac_other hu, Work.HasRoom, hroom]
    exact h

theorem foldl_hasRoom {vacRoom : Int} (hvac : 0 ≤ vacRoom) (b : Specials) {w : Work} (h : w.HasRoom vacRoom)
    {rules : List (Specials → Work → Work)} (hrules : rules ⊆ rewriteRules.eraseIdx 3) :
    (rules.foldl (fun w rule => rule b w) w).HasRoom vacRoom :=
  List.foldlRecOn rules _ h fun _ hw rule hr => rule_hasRoom hvac b hw rule (hrules hr)

/-! ## Every point of the chain -/

/-- The chain stopped before RW_VAC has V AC's room still; stopped after it, it is three rules, RW_VAC, and rules
that keep what room there is. -/
theorem foldl_take_exp_le (b : Specials) {w : Work} (h : w.HasRoom 2) (n : Nat) :
    ((rewriteRules.take n).foldl (fun w rule => rule b w) w).exp ≤ 0 := by
  have before {k : Nat} (hk : k ≤ 3) := foldl_hasRoom (by decide) b h (rules := rewriteRules.take k)
    (List.Subset.trans (List.take_subset_take_left _ hk) (by simp [rewriteRules]))
  obtain hn | ⟨k, rfl⟩ := (Nat.lt_or_ge n 4).imp_right Nat.exists_eq_add_of_le'
  · exact (before (Nat.le_of_lt_succ hn)).exp_le (by decide)
  · have hsplit : rewriteRules.take (k + 4) = rewriteRules.take 3 ++ rwVac :: (rewriteRules.drop 4).take k := rfl
    have hrest : (rewriteRules.drop 4).take k ⊆ rewriteRules.eraseIdx 3 :=
      List.Subset.trans (List.take_subset k _) (by simp [rewriteRules])
    rw [hsplit, List.foldl_append, List.foldl_cons]
    exact (foldl_hasRoom le_rfl b (rwVac_hasRoom b (before le_rfl)) hrest).exp_le le_rfl

theorem rule_aboveFloor (b : Specials) {w : Work} (h : w.AboveFloor) :
    ∀ rule ∈ rewriteRules, (rule b w).AboveFloor := by
  simp only [rewriteRules, List.forall_mem_cons]
  exact ⟨rwOhm_aboveFloor b h, rwPct_aboveFloor b h, rwNf_aboveFloor b h, rwVac_aboveFloor b h,
    rwMvdcAlt_aboveFloor b h, rwVdcAlt_aboveFloor b h, rwMvacAlt_aboveFloor b h, rwVacAlt_aboveFloor b h,
    rwDbmSign_aboveFloor b h, rwUaac_aboveFloor b h, by simp⟩

theorem foldl_take_aboveFloor (b : Specials) {w : Work} (h : w.AboveFloor) (n : Nat) :
    ((rewriteRules.take n).foldl (fun w rule => rule b w) w).AboveFloor :=
  List.foldlRecOn _ _ h fun _ hw rule hr => rule_aboveFloor b hw rule (List.mem_of_mem_take hr)

theorem Work.AboveFloor.exp_ge {w : Work} (h : w.AboveFloor) : -5 ≤ w.exp := (expFloor_ge w.unit).trans h

/-! ## The chain's end -/

theorem scaleInit_exp {t : ModeTable} (h : t.contentsOk = true) (m : Mode) :
    (scaleInit (t.entry m)).exp = -2 ∨ (scaleInit (t.entry m)).exp = -3 ∨ (scaleInit (t.entry m)).exp = -4 := by
  rw [scaleInit_entry h]
  cases m <;> decide

theorem chainForm_exp_mem (m : Mode) (b : Specials) : -5 ≤ (chainForm m b).exp ∧ (chainForm m b).exp ≤ -1 := by
  cases m <;> simp only [chainForm] <;> repeat' split
  all_goals decide

theorem chainForm_exp_eq_neg_five_iff (m : Mode) (b : Specials) :
    (chainForm m b).exp = -5 ↔ m = .pct ∧ b.cap = true ∧ b.sel2 = false := by
  cases m <;> simp only [chainForm] <;> repeat' split
  all_goals simp_all

theorem chainForm_exp_eq_neg_one_iff (m : Mode) (b : Specials) :
    (chainForm m b).exp = -1 ↔ m = .nf ∧ b.sel2 = true := by
  cases m <;> simp only [chainForm] <;> repeat' split
  all_goals simp_all

/-- MUL10 on the chain's result (42_scaler.md R162). -/
theorem scale_exp {t : ModeTable} (h : t.wf = true) (m : Mode) (b : Specials) :
    (scale (t.entry m) b).exp = (chainForm m b).exp + if b.x10 then 1 else 0 := by
  rw [scale, mul10_exp, rewriteChain_entry h]

theorem scale_exp_le {t : ModeTable} (h : t.wf = true) (m : Mode) (b : Specials) : (scale (t.entry m) b).exp ≤ 0 := by
  have hmem := chainForm_exp_mem m b
  rw [scale_exp h]
  split <;> omega

theorem scale_exp_eq_neg_five_iff {t : ModeTable} (h : t.wf = true) (m : Mode) (b : Specials) :
    (scale (t.entry m) b).exp = -5 ↔ m = .pct ∧ b.cap = true ∧ b.sel2 = false ∧ b.x10 = false := by
  have hmem := chainForm_exp_mem m b
  have hlow := chainForm_exp_eq_neg_five_iff m b
  rw [scale_exp h]
  split <;> grind

theorem scale_exp_eq_zero_iff {t : ModeTable} (h : t.wf = true) (m : Mode) (b : Specials) :
    (scale (t.entry m) b).exp = 0 ↔ m = .nf ∧ b.sel2 = true ∧ b.x10 = true := by
  have hmem := chainForm_exp_mem m b
  have hhigh := chainForm_exp_eq_neg_one_iff m b
  rw [scale_exp h]
  split <;> grind

/-- DP = -EXP fits its 3 bits (42_scaler.md R164). -/
theorem decimalPlaces_toNat {w : Work} (h : w.AboveFloor) : (decimalPlaces w).toNat = (-w.exp).toNat := by
  have hexp := h.exp_ge
  simp only [decimalPlaces, BitVec.toNat_ofNat]
  omega

/-- Settles O52: EXP keeps above the unit's floor and has room above it at every point of the chain; MUL10 finds it
at -1 or below. -/
theorem exponentStaysInRange : Obligations.ExponentStaysInRange := fun t m b h => by
  obtain ⟨-, hcontents⟩ := ModeTable.wf_iff.mp h
  have hfloor := scale_aboveFloor h m b
  exact ⟨fun n => ⟨(foldl_take_aboveFloor b (scaleInit_aboveFloor hcontents m) n).exp_ge,
      foldl_take_exp_le b (scaleInit_hasRoom hcontents m) n⟩,
    hfloor.exp_ge, scale_exp_le h m b, scaleInit_exp hcontents m, scale_exp_eq_neg_five_iff h m b,
    scale_exp_eq_zero_iff h m b, decimalPlaces_toNat hfloor⟩

end Sys2Proof.Machine
end

section
/-!
SUPPORT. O51, the scaler against the source: the working values stand for the source's, the chain's rules are the
source's rules on what they stand for, and the record denotes what the scaler's result stands for.
-/

namespace Sys2Proof.Machine

/-- The labels are told apart by their text, so the source's test of a label is the scaler's test of a unit. -/
theorem unitText_inj {u v : UnitLabel} : unitText u = unitText v ↔ u = v := by
  refine ⟨fun h => ?_, congrArg unitText⟩
  revert h
  cases u <;> cases v <;> decide

/-- What the source holds where the scaler holds `w`: the value MAG x 10^EXP, the unit's label, and FNN. -/
def Work.toSource (d : Digits) (w : Work) : SourceWork where
  value := magnitude d * 10 ^ w.exp
  unit := unitText w.unit
  forced := w.fnn

theorem toSource_forceNonNegative (d : Digits) (w : Work) :
    w.forceNonNegative.toSource d = { w.toSource d with forced := true } := rfl

theorem toSource_rewrite (d : Digits) (w : Work) (u : UnitLabel) (de : Int) :
    (w.rewrite u de).toSource d =
      { w.toSource d with value := (w.toSource d).value * 10 ^ de, unit := unitText u } := by
  simp [Work.toSource, Work.rewrite, zpow_add₀, mul_assoc]

theorem toSource_mul10 (b : Specials) (d : Digits) (w : Work) :
    (mul10 b w).toSource d =
      { w.toSource d with value := if b.x10 then (w.toSource d).value * 10 else (w.toSource d).value } := by
  cases hx : b.x10 <;> simp [Work.toSource, mul10, hx, zpow_add₀, mul_assoc]

/-- The labels that the source's rules test. -/
theorem toSource_unit_iff (d : Digits) (w : Work) :
    ((w.toSource d).unit = "Ohm" ↔ w.unit = .ohm) ∧ ((w.toSource d).unit = "%" ↔ w.unit = .percent) ∧
    ((w.toSource d).unit = "nF" ↔ w.unit = .nf) ∧ ((w.toSource d).unit = "V AC" ↔ w.unit = .vAc) ∧
    ((w.toSource d).unit = "mV DC" ↔ w.unit = .mvDc) ∧ ((w.toSource d).unit = "V DC" ↔ w.unit = .vDc) ∧
    ((w.toSource d).unit = "mV AC" ↔ w.unit = .mvAc) ∧ ((w.toSource d).unit = "dBm" ↔ w.unit = .dbm) ∧
    ((w.toSource d).unit = "uA AC" ↔ w.unit = .uaAc) :=
  have label (u : UnitLabel) : (w.toSource d).unit = unitText u ↔ w.unit = u := unitText_inj
  ⟨label .ohm, label .percent, label .nf, label .vAc, label .mvDc, label .vDc, label .mvAc, label .dbm, label .uaAc⟩

/-- The scaler's rule does to EXP, UNIT and FNN what the source's rule does to what they stand for. -/
def MeetsSource (b : Specials) (d : Digits) (rule : Specials → Work → Work)
    (src : SourceWork → SourceWork) : Prop :=
  ∀ w : Work, src (w.toSource d) = (rule b w).toSource d

/-- Rule by rule the two chains test the same label and the same bit, and a division or multiplication by a power of
ten moves EXP by its exponent (42_scaler.md R152 to R161). -/
theorem rewriteRules_meet_sourceRules (b : Specials) (d : Digits) :
    List.Forall₂ (MeetsSource b d) rewriteRules (sourceRules b) := by
  simp only [rewriteRules, sourceRules, List.forall₂_cons, List.forall₂_nil_left_iff, and_true]
  refine ⟨?_, ?_, ?_, ?_, ?_, ?_, ?_, ?_, ?_, ?_⟩ <;> intro w
  all_goals
    simp only [toSource_unit_iff, rwOhm, rwPct, rwNf, rwVac, rwMvdcAlt, rwVdcAlt, rwMvacAlt, rwVacAlt, rwDbmSign,
      rwUaac]
    split_ifs <;> norm_num [toSource_rewrite, toSource_forceNonNegative, unitText, div_eq_mul_inv, toSource_unit_iff, *]

theorem sourceRules_toSource (b : Specials) (d : Digits) (w : Work) :
    (sourceRules b).foldl (fun w rule => rule w) (w.toSource d) = (rewriteChain b w).toSource d :=
  List.rel_foldl (P := fun (w : Work) src => src = w.toSource d) (R := MeetsSource b d)
    (fun w _ hw _ src hrule => (congrArg src hw).trans (hrule w)) rfl (rewriteRules_meet_sourceRules b d)

theorem divisorOf_eq (m : Mode) : divisorOf m = 10 ^ (divExpOf m).toNat := by
  cases m <;> rfl

theorem sourceInit_eq_toSource {t : ModeTable} (h : t.contentsOk = true) (m : Mode) (d : Digits) :
    sourceInit m d = (scaleInit (t.entry m)).toSource d := by
  rw [scaleInit_entry h]
  simp [Work.toSource, sourceInit, divisorOf_eq, div_eq_mul_inv]

/-- The Measurement that a final `w` stands for, under NEG and OVF (42_scaler.md R163, R165). -/
def Work.toMeasurement (b : Specials) (d : Digits) (w : Work) : Measurement where
  value := if b.ol then .overflow
    else .number (if negFlag b w then -(w.toSource d).value else (w.toSource d).value)
  unit := unitText w.unit

/-- The source's result is what the scaler's result stands for. -/
theorem sourceMeasurement_eq_toMeasurement {t : ModeTable} (h : t.contentsOk = true) (m : Mode) (b : Specials)
    (d : Digits) : sourceMeasurement m b d = (scale (t.entry m) b).toMeasurement b d := by
  simp only [sourceMeasurement, sourceInit_eq_toSource h, sourceRules_toSource, scale, Work.toMeasurement,
    toSource_mul10]
  simp [Work.toSource, negFlag]

/-- While EXP lies in -5 to 0, MAG / 10^DP is MAG x 10^EXP, so the record denotes what the scaler's result stands
for (42_scaler.md R166). -/
theorem recordMeasurement_measurementRecord (b : Specials) (d : Digits) {w : Work} (hlow : w.AboveFloor)
    (hhigh : w.exp ≤ 0) : recordMeasurement (measurementRecord b d w) = some (w.toMeasurement b d) := by
  have hvalue : (10 : ℚ) ^ w.exp = (10 ^ (decimalPlaces w).toNat)⁻¹ := by
    rw [decimalPlaces_toNat hlow, ← zpow_natCast, ← zpow_neg, Int.toNat_of_nonneg (by omega), neg_neg]
  cases hol : b.ol <;> cases hneg : negFlag b w <;>
    simp [recordMeasurement, measurementRecord, ovfFlag, Work.toMeasurement, Work.toSource, hol, hneg, hvalue,
      div_eq_mul_inv]

/-- Settles O51: both sides are what the scaler's result stands for. -/
theorem scalerMeetsTheSource : Obligations.ScalerMeetsTheSource := fun t m b d h => by
  rw [sourceMeasurement_eq_toMeasurement (ModeTable.wf_iff.mp h).2]
  exact recordMeasurement_measurementRecord b d (scale_aboveFloor h m b) (scale_exp_le h m b)

end Sys2Proof.Machine
end

section
/-!
SUPPORT. O22, CFG_RAW steers no transition: seen without CFG_RAW, LAST_EXC and the emitted records, every transition
looks the same from a state and from what is left of it, and so does running a frame, though its record depends on
CFG_RAW.
-/

namespace Sys2Proof.Machine

@[simp] theorem withoutOutputMode_fsm (s : State) : s.withoutOutputMode.fsm = s.fsm := rfl
@[simp] theorem withoutOutputMode_inReset (s : State) : s.withoutOutputMode.inReset = s.inReset := rfl
@[simp] theorem withoutOutputMode_supply (s : State) : s.withoutOutputMode.supply = s.supply := rfl

/-- What running a frame leaves beside CFG_RAW, LAST_EXC and the records is READ(8) issued again, in either output
mode (43_resync_fsm.md R189). -/
theorem viewMode_exec_decodeFrame (s : State) (f : Frame) :
    viewOutcome State.withoutOutputMode (exec (decodeFrame s.rom s.cfgRaw f) s) =
      .next { s.withoutOutputMode with fsm := .run, commands := s.commands ++ [.read 8] } := by
  obtain ⟨e, he⟩ := exec_decodeFrame s f
  rw [he]
  rfl

/-- Whether a read is a frame is a matter of its length alone, not of the output mode. -/
theorem viewMode_runData (s : State) (bytes : List Byte) :
    viewOutcome State.withoutOutputMode (runData exec s.withoutOutputMode bytes) =
      viewOutcome State.withoutOutputMode (runData exec s bytes) := by
  unfold runData decode
  cases frameOfBytes bytes with
  | some f =>
    exact (viewMode_exec_decodeFrame s.withoutOutputMode f).trans (viewMode_exec_decodeFrame s f).symm
  | none => rfl

theorem viewMode_answer (r : Response) (s : State) :
    viewOutcome State.withoutOutputMode (answer exec r s.withoutOutputMode) =
      viewOutcome State.withoutOutputMode (answer exec r s) := by
  have hfail : s.withoutOutputMode.streamFail.withoutOutputMode = s.streamFail.withoutOutputMode := rfl
  simp only [answer, withoutOutputMode_fsm]
  cases s.fsm with
  | setShort | setLong => refine viewOutcome_answerSetTimeout ?_ hfail r; rfl
  | junk => refine viewOutcome_answerRead _ (fun _ => ?_) hfail r; rfl
  | probe =>
    refine viewOutcome_answerRead _ (fun bytes => ?_) hfail r
    split <;> rfl
  | run => exact viewOutcome_answerRead _ (viewMode_runData s) hfail r
  | closed | failed => rfl

/-- Reset loads CFG_RAW, CANCEL writes LAST_EXC, and neither reads them. -/
theorem viewMode_present (i : Input) (s : State) :
    viewOutcome State.withoutOutputMode (present exec i s.withoutOutputMode) =
      viewOutcome State.withoutOutputMode (present exec i s) := by
  unfold present
  rw [withoutOutputMode_inReset, withoutOutputMode_fsm]
  cases i.resp with
  | none => split_ifs <;> rfl
  | some r =>
    split_ifs
    case neg => exact viewMode_answer r s
    all_goals rfl

theorem viewMode_step (s : State) :
    viewOutcome State.withoutOutputMode (step s.withoutOutputMode) =
      viewOutcome State.withoutOutputMode (step s) := by
  simp only [step, tick, withoutOutputMode_supply]
  cases s.supply with
  | nil => rfl
  | cons i rest => exact viewMode_present i { s with inputs := rest }

/-- Settles O22: seen without the output mode, each of the two steps looks like the step from what the two states have
in common. -/
theorem outputModeDoesNotSteer : Obligations.OutputModeDoesNotSteer := by
  intro s s' hsame
  apply ends_alike_of_viewOutcome_eq
  rw [← viewMode_step s, hsame, viewMode_step s']

end Sys2Proof.Machine
end

section
/-!
SUPPORT. O4 to O9, O15 and O35, one step by the rule of its state: what each state answers to each response it
admits, and the steps that act on a response, on a frame, or on nothing.
-/

namespace Sys2Proof.Machine

/-! ## The answer of each state -/

section
variable {run : Instr → State → Host.Outcome State Fault Refusal} {s : State} {bytes : List Byte}

theorem answer_setShort_ack (hf : s.fsm = .setShort) : answer run .ack s = .next s.tShortAck := by
  simp only [answer, hf, answerSetTimeout]

theorem answer_junk_data (hf : s.fsm = .junk) (hlen : bytes.length ≤ 16) :
    answer run (.data bytes) s = .next s.junkDone := by
  simp only [answer, hf, answerRead, hlen, if_true]

theorem answer_probe_short (hf : s.fsm = .probe) (hlen : bytes.length < 8) :
    answer run (.data bytes) s = .next s.probeShort := by
  simp only [answer, hf, answerRead, hlen.le, hlen, if_true]

theorem answer_probe_full (hf : s.fsm = .probe) (hlen : bytes.length = 8) :
    answer run (.data bytes) s = .next s.probeFull := by
  simp only [answer, hf, answerRead, hlen, le_refl, lt_irrefl, if_true, if_false]

theorem answer_setLong_ack (hf : s.fsm = .setLong) : answer run .ack s = .next s.tLongAck := by
  simp only [answer, hf, answerSetTimeout]

theorem answer_run_data (hf : s.fsm = .run) (hlen : bytes.length ≤ 8) :
    answer run (.data bytes) s = runData run s bytes := by
  simp only [answer, hf, answerRead, hlen, if_true]

theorem answer_run_short (hf : s.fsm = .run) (hlen : bytes.length < 8) :
    answer run (.data bytes) s = .next (s.runShort bytes.length) := by
  rw [answer_run_data hf hlen.le, runData]
  obtain ⟨hfull, -⟩ | ⟨-, hd⟩ := decode_cases s.rom s.cfgRaw bytes
  · omega
  · rw [hd]

/-- RUN_FRAME (43_resync_fsm.md R189); bytes that decode are 8. -/
theorem answer_run_frame {i : Instr} (hf : s.fsm = .run) (hd : decode s.rom s.cfgRaw bytes = .ok i) :
    answer run (.data bytes) s = run i s := by
  obtain ⟨hfull, -⟩ | ⟨-, hno⟩ := decode_cases s.rom s.cfgRaw bytes
  · rw [answer_run_data hf hfull.le, runData, hd]
  · cases hno.symm.trans hd

/-- Fail is an answer to every outstanding command (43_resync_fsm.md R190). -/
theorem answer_fail (hterm : s.fsm.terminal = false) : answer run .fail s = .next s.streamFail := by
  cases hf : s.fsm with
  | setShort | setLong => simp only [answer, hf, answerSetTimeout]
  | junk | probe | run => simp only [answer, hf, answerRead]
  | closed | failed => rw [hf] at hterm; cases hterm

end

/-! ## The step on a response -/

/-- Settles O4. -/
theorem shortTimeoutAcknowledged : Obligations.ShortTimeoutAcknowledged := fun _ _ h hf =>
  (step_receives h).trans (answer_setShort_ack hf)

/-- Settles O5. -/
theorem junkReadDiscarded : Obligations.JunkReadDiscarded := fun _ _ _ h hf hlen =>
  (step_receives h).trans (answer_junk_data hf hlen)

/-- A short probe read, with FSM_STATE left as it is. -/
theorem probeShort_eq {s : State} (hf : s.fsm = .probe) :
    s.probeShort = { s with syncRetry := satInc32 s.syncRetry, commands := s.commands ++ [.read 8] } :=
  State.ext_fields hf.symm rfl rfl rfl rfl rfl rfl rfl rfl rfl rfl rfl rfl rfl

/-- Settles O6. -/
theorem shortProbeRetries : Obligations.ShortProbeRetries := by
  intro s bytes rest h hf hlen
  have hstep := (step_receives h).trans (answer_probe_short hf hlen)
  have hstate := probeShort_eq (s := { s with inputs := rest }) hf
  exact ⟨satInc32 s.syncRetry, satInc32_toNat _, hstep.trans (congrArg Host.Outcome.next hstate)⟩

/-- Settles O7. -/
theorem fullProbeAligns : Obligations.FullProbeAligns := fun _ _ _ h hf hlen =>
  (step_receives h).trans (answer_probe_full hf hlen)

/-- Settles O8. -/
theorem longTimeoutAcknowledged : Obligations.LongTimeoutAcknowledged := fun _ _ h hf =>
  (step_receives h).trans (answer_setLong_ack hf)

/-- Settles O9, with the saturating increment of RESYNC_COUNT. -/
theorem shortReadInRunLosesSynchronization : Obligations.ShortReadInRunLosesSynchronization :=
  fun s _ _ h hf hlen =>
    ⟨satInc32 s.resyncCount, satInc32_toNat _, (step_receives h).trans (answer_run_short hf hlen)⟩

theorem step_of_decode {s : State} {bytes : List Byte} {rest : List Input} {i : Instr}
    (h : s.Receives (.data bytes) rest) (hf : s.fsm = .run) (hd : decode s.rom s.cfgRaw bytes = .ok i) :
    step s = exec i { s with inputs := rest } :=
  (step_receives h).trans (answer_run_frame hf hd)

theorem receives_withFetchWord (s : State) (nbits w : Nat) :
    (s.withFetchWord nbits w).Receives (.data (wordBytes nbits w)) s.inputs := ⟨rfl, rfl, false, rfl⟩

/-- Settles O35: bytes that decode are a full read, and the frame that withFetchWord places is the next response. -/
theorem stepRunsTheDecodedInstruction : Obligations.StepRunsTheDecodedInstruction :=
  ⟨fun _ _ _ _ h hf hd => step_of_decode h hf hd,
    fun s nbits w _ hd => step_of_decode (receives_withFetchWord s nbits w) rfl hd⟩

/-! ## The step on nothing -/

theorem step_of_supply_nil {s : State} (h : s.supply = []) : step s = .next s := by
  simp only [step, tick, h]

/-- Settles O15: an input that asserts nothing and holds no response is taken, and whether the state is terminal makes
no difference to it. -/
theorem noInputNoChange : Obligations.NoInputNoChange := by
  refine fun s => ⟨step_of_supply_nil, fun i rest hsupply hreset hheld hcancel hresp => ?_⟩
  simp [step_of_supply hsupply, present, hreset, hheld, hcancel, hresp]

end Sys2Proof.Machine
end

section
/-!
SUPPORT. O14, the step is total on the admissible responses: the answers to SET_TIMEOUT, to READ and of each state
are a next state on an admitted response and a refusal by name on any other.
-/

namespace Sys2Proof.Machine

/-- A response outside the stream contract is refused by one of three names (log entry 8). -/
def ContractRefusal (o : Host.Outcome State Fault Refusal) : Prop :=
  o = .refused .responseOfWrongKind ∨ o = .refused .responseTooLong ∨ o = .refused .responseReserved

/-- An admitted response has a next state, any other is refused by name. -/
def AnsweredIff (admitted : Bool) (o : Host.Outcome State Fault Refusal) : Prop :=
  (admitted = true → ∃ t, o = .next t) ∧ (admitted = false → ContractRefusal o)

theorem answeredIff_next (t : State) : AnsweredIff true (.next t) :=
  ⟨fun _ => ⟨t, rfl⟩, by simp⟩

theorem answeredIff_refused {o : Host.Outcome State Fault Refusal} (h : ContractRefusal o) : AnsweredIff false o :=
  ⟨by simp, fun _ => h⟩

/-- SET_TIMEOUT admits Ack and Fail, which is what ST_SET_SHORT admits. -/
theorem answerSetTimeout_answeredIff (onAck : State) (r : Response) (s : State) :
    AnsweredIff (admits .setShort r) (answerSetTimeout onAck r s) := by
  cases r with
  | ack | fail => exact answeredIff_next _
  | data bytes => exact answeredIff_refused (.inl rfl)
  | reserved => exact answeredIff_refused (.inr (.inr rfl))

/-- READ(n) admits Data of at most n bytes, and Fail. -/
def readAdmits (n : Nat) : Response → Bool
  | .data bytes => decide (bytes.length ≤ n)
  | .fail => true
  | .ack | .reserved => false

theorem admits_setLong (r : Response) : admits .setLong r = admits .setShort r := by cases r <;> rfl
theorem admits_junk (r : Response) : admits .junk r = readAdmits 16 r := by cases r <;> rfl
theorem admits_probe (r : Response) : admits .probe r = readAdmits 8 r := by cases r <;> rfl
theorem admits_run (r : Response) : admits .run r = readAdmits 8 r := by cases r <;> rfl

theorem answerRead_answeredIff {n : Nat} {onData : List Byte → Host.Outcome State Fault Refusal}
    (hdata : ∀ bytes, ∃ t, onData bytes = .next t) (r : Response) (s : State) :
    AnsweredIff (readAdmits n r) (answerRead n onData r s) := by
  cases r with
  | data bytes =>
    obtain ⟨t, ht⟩ := hdata bytes
    by_cases hlen : bytes.length ≤ n
    · simpa [readAdmits, answerRead, hlen, ht] using answeredIff_next t
    · simpa [readAdmits, answerRead, hlen] using answeredIff_refused (.inr (.inl rfl))
  | fail => exact answeredIff_next _
  | ack => exact answeredIff_refused (.inl rfl)
  | reserved => exact answeredIff_refused (.inr (.inr rfl))

/-- A read in ST_RUN has a next state whatever its bytes: a frame's instruction or a SynchronizationLoss. -/
theorem runData_next (s : State) (bytes : List Byte) : ∃ t, runData exec s bytes = .next t := by
  unfold runData
  obtain ⟨-, f, -, hd⟩ | ⟨-, hd⟩ := decode_cases s.rom s.cfgRaw bytes
  · obtain ⟨e, he⟩ := exec_decodeFrame s f
    exact ⟨_, by rw [hd]; exact he⟩
  · exact ⟨_, by rw [hd]⟩

theorem answer_answeredIff {s : State} (hterm : s.fsm.terminal = false) (r : Response) :
    AnsweredIff (admits s.fsm r) (answer exec r s) := by
  unfold answer
  cases hf : s.fsm with
  | setShort => exact answerSetTimeout_answeredIff _ r s
  | junk =>
    rw [admits_junk]
    exact answerRead_answeredIff (fun _ => ⟨_, rfl⟩) r s
  | probe =>
    rw [admits_probe]
    refine answerRead_answeredIff (fun bytes => ?_) r s
    split <;> exact ⟨_, rfl⟩
  | setLong =>
    rw [admits_setLong]
    exact answerSetTimeout_answeredIff _ r s
  | run =>
    rw [admits_run]
    exact answerRead_answeredIff (runData_next s) r s
  | closed | failed => rw [hf] at hterm; cases hterm

/-- CANCEL outside reset and outside a terminal state, whatever stands beside it (60_exceptions.md R238). -/
theorem step_cancel {s : State} {i : Input} {rest : List Input} (hsupply : s.supply = i :: rest)
    (hreset : i.reset = false) (hheld : s.inReset = false) (hterm : s.fsm.terminal = false)
    (hcancel : i.cancel = true) : step s = .next ({ s with inputs := rest } : State).cancel := by
  simp [step_of_supply hsupply, present, hreset, hheld, hterm, hcancel]

/-- Settles O14. -/
theorem admissibleInputsHaveAStep : Obligations.AdmissibleInputsHaveAStep := by
  refine ⟨fun s r rest h => ?_, fun s rest hsupply hheld hterm =>
    ⟨_, step_cancel hsupply rfl hheld hterm rfl⟩⟩
  rw [step_receives h]
  exact answer_answeredIff (s := { s with inputs := rest }) h.waiting r

end Sys2Proof.Machine
end

section
/-!
SUPPORT. O11, O12 and O13, the terminal states: nothing but RESET leaves one, over runs of any length; with it, what
follows a StreamFailure and a cancellation.
-/

namespace Sys2Proof.Machine

theorem step_terminal {s : State} {i : Input} {rest : List Input} (hsupply : s.supply = i :: rest)
    (hreset : i.reset = false) (hheld : s.inReset = false) (hterm : s.fsm.terminal = true) :
    step s = .next { s with inputs := rest } := by
  simp [step_of_supply hsupply, present, hreset, hheld, hterm]

/-- Every step of a run from a terminal state drops one input, or waits (43_resync_fsm.md R192). -/
theorem run_terminal (n : Nat) {s : State} (hheld : s.inReset = false) (hterm : s.fsm.terminal = true)
    (hreset : ∀ i ∈ s.inputs ++ s.repeating, i.reset = false) :
    ∃ left, Sys2Proof.core.run n s = .next { s with inputs := left } ∧
      (s.repeating = [] → left = s.inputs.drop n) := by
  induction n generalizing s with
  | zero => exact ⟨s.inputs, rfl, fun _ => rfl⟩
  | succ n ih =>
    cases hsupply : s.supply with
    | nil =>
      obtain ⟨hin, hrep⟩ := supply_eq_nil.mp hsupply
      obtain ⟨left, hrun, hleft⟩ := ih hheld hterm hreset
      refine ⟨left, (run_succ (step_of_supply_nil hsupply) n).trans hrun, fun hr => ?_⟩
      rw [hleft hr, hin, List.drop_nil, List.drop_nil]
    | cons i rest =>
      have hmem : ∀ j ∈ i :: rest, j.reset = false := fun j hj =>
        hreset j (List.mem_append.mpr (mem_of_mem_supply (hsupply ▸ hj)))
      obtain ⟨hi, hrest⟩ := List.forall_mem_cons.mp hmem
      have hkeep : ∀ j ∈ rest ++ s.repeating, j.reset = false :=
        List.forall_mem_append.mpr ⟨hrest, (List.forall_mem_append.mp hreset).2⟩
      obtain ⟨left, hrun, hleft⟩ := ih (s := { s with inputs := rest }) hheld hterm hkeep
      refine ⟨left, (run_succ (step_terminal hsupply hi hheld hterm) n).trans hrun, fun hr => ?_⟩
      have hin : s.inputs = i :: rest := by
        cases hs : s.inputs with
        | nil => rw [supply_of_nil hs, hr] at hsupply; cases hsupply
        | cons j js => rw [supply_of_inputs hs] at hsupply; exact hsupply
      rw [hleft hr, hin, List.drop_succ_cons]

/-- Settles O13: a terminal state has no command outstanding, and a run from it drops inputs and nothing else. -/
theorem terminalUntilReset : Obligations.TerminalUntilReset := by
  intro n s hheld hterm hreset
  refine ⟨?_, run_terminal n hheld hterm hreset⟩
  obtain hf | hf := terminal_iff.mp hterm <;> simp [State.cmd, commandOf, hheld, hf]

/-- What a step to a terminal state ends in, every later state of a run without RESET has too, beside its inputs. -/
theorem run_after_terminal {s u t : State} (hstep : step s = .next u) (hheld : u.inReset = false)
    (hterm : u.fsm.terminal = true) (hreset : ∀ i ∈ u.inputs ++ u.repeating, i.reset = false) {n : Nat}
    (hrun : Sys2Proof.core.run (n + 1) s = .next t) : ∃ left, t = { u with inputs := left } := by
  obtain ⟨left, hleft, -⟩ := run_terminal n hheld hterm hreset
  rw [run_succ hstep, hleft] at hrun
  exact ⟨left, (Host.Outcome.next.inj hrun).symm⟩

/-- FAIL_CMD names the kind of the command outstanding (43_resync_fsm.md R190). -/
theorem failCmdOf_eq {f : FsmState} (hterm : f.terminal = false) :
    failCmdOf f = if f = .setShort ∨ f = .setLong then .setTimeout else .read := by
  cases f with
  | closed | failed => cases hterm
  | _ => rfl

/-- A failure as a whole next state: entering ST_FAILED issues no command. -/
theorem streamFail_eq {s : State} (hterm : s.fsm.terminal = false) :
    s.streamFail = { s with
      fsm := .failed
      lastExc := .streamFailure
      failCmd := if s.fsm = .setShort ∨ s.fsm = .setLong then .setTimeout else .read } :=
  State.ext_fields rfl rfl rfl rfl rfl rfl (failCmdOf_eq hterm) rfl rfl rfl rfl rfl (streamFail_commands s) rfl

/-- Settles O11: Fail leads to ST_FAILED, which is terminal. -/
theorem streamFailureIsFatal : Obligations.StreamFailureIsFatal := by
  intro s rest h
  have hstep := (step_receives h).trans (answer_fail h.waiting)
  refine ⟨hstep.trans (congrArg Host.Outcome.next (streamFail_eq h.waiting)), fun n t hreset hrun => ?_⟩
  obtain ⟨left, rfl⟩ := run_after_terminal hstep h.running rfl hreset hrun
  rfl

/-- A cancellation as a whole next state: CLOSE is issued, and entering ST_CLOSED issues no command more. -/
theorem cancel_eq (s : State) :
    s.cancel =
      { s with fsm := .closed, lastExc := .userCancellation, commands := s.commands ++ [.close] } :=
  State.ext_fields rfl rfl rfl rfl rfl rfl rfl rfl rfl rfl rfl rfl (cancel_commands s) rfl

/-- Settles O12: CANCEL leads to ST_CLOSED, which is terminal. -/
theorem cancellationClosesStream : Obligations.CancellationClosesStream := by
  intro s i rest hsupply hreset hheld hterm hcancel
  have hstep := step_cancel hsupply hreset hheld hterm hcancel
  refine ⟨hstep.trans (congrArg Host.Outcome.next (cancel_eq _)), fun n t hlater hrun => ?_⟩
  obtain ⟨left, rfl⟩ := run_after_terminal hstep hheld rfl hlater hrun
  exact ⟨rfl, rfl⟩

end Sys2Proof.Machine
end

section
/-!
SUPPORT. O10, a full read in ST_RUN: which record and which LAST_EXC running a frame leaves, by the channel.
-/

namespace Sys2Proof.Machine

/-- What a full read may report: a record on the measurement channel leaves LAST_EXC, one on the error channel, in
decoded mode only, writes it; the record is RAW in raw mode only (43_resync_fsm.md R189). -/
structure FrameReport (cfgRaw : Bool) (before : ExcCode) (r : Record) (after : ExcCode) : Prop where
  channel : (recordChannel r = .measurement ∧ after = before) ∨
    (cfgRaw = false ∧ recordChannel r = .error ∧ (after = .unknownMode ∨ after = .badDigit))
  isRaw : cfgRaw = true ↔ ∃ bf k sg g, r = .raw bf k sg g

theorem measurementRecord_frameReport (b : Specials) (d : Digits) (w : Work) (e : ExcCode) :
    FrameReport false e (measurementRecord b d w) e := by
  unfold measurementRecord
  split_ifs
  · exact ⟨.inl ⟨rfl, rfl⟩, by simp⟩
  · exact ⟨.inl ⟨rfl, rfl⟩, by simp⟩

/-- Running a frame gives one record, with LAST_EXC by its channel. -/
theorem exec_decodeFrame_report (s : State) (f : Frame) :
    ∃ r e, exec (decodeFrame s.rom s.cfgRaw f) s = .next { s.afterRecord r with lastExc := e } ∧
      FrameReport s.cfgRaw s.lastExc r e := by
  cases s.cfgRaw with
  | true => exact ⟨_, s.lastExc, rfl, .inl ⟨rfl, rfl⟩, by simp [rawRecord]⟩
  | false =>
    obtain ⟨-, hi⟩ | ⟨d, -, -, hi⟩ | ⟨d, m, -, -, hi⟩ := decodeFrame_cases s.rom f
    · rw [hi]
      exact ⟨_, .badDigit, rfl, .inr ⟨rfl, rfl, .inr rfl⟩, by simp⟩
    · rw [hi]
      exact ⟨_, .unknownMode, rfl, .inr ⟨rfl, rfl, .inl rfl⟩, by simp⟩
    · rw [hi, exec_selectRow, measure_eq_afterRecord]
      exact ⟨_, s.lastExc, rfl, measurementRecord_frameReport _ d _ _⟩

/-- A record emitted in ST_RUN leaves FSM_STATE as it is. -/
theorem afterRecord_of_run {s : State} (hf : s.fsm = .run) (r : Record) (e : ExcCode) :
    { s.afterRecord r with lastExc := e } =
      { s with records := s.records ++ [r], lastExc := e, commands := s.commands ++ [.read 8] } :=
  State.ext_fields hf.symm rfl rfl rfl rfl rfl rfl rfl rfl rfl rfl rfl rfl rfl

/-- A full read in ST_RUN runs the frame's instruction. -/
theorem step_frame {s : State} {f : Frame} {rest : List Input} (h : s.Receives (.data (frameBytes f)) rest)
    (hf : s.fsm = .run) : step s = exec (decodeFrame s.rom s.cfgRaw f) { s with inputs := rest } :=
  step_of_decode h hf rfl

/-- Settles O10. -/
theorem fullReadInRunEmitsOneRecord : Obligations.FullReadInRunEmitsOneRecord := by
  intro s f rest h hf
  have hstep := step_frame h hf
  obtain ⟨r, e, hexec, hreport⟩ := exec_decodeFrame_report { s with inputs := rest } f
  have hstate := afterRecord_of_run (s := { s with inputs := rest }) hf r e
  exact ⟨hstep, r, e, hstep.trans (hexec.trans (congrArg Host.Outcome.next hstate)), hreport.channel, hreport.isRaw⟩

end Sys2Proof.Machine
end

section
/-!
SUPPORT. O16, O17, O18 and O55, runs of the resync state machine: the saturating count and the state after any number
of short probes, then a synchronisation as a whole next state, then the frames that follow it.
-/

namespace Sys2Proof.Machine

/-! ## Short probes -/

/-- The saturating count after any number of increments (00_scope.md R10). -/
theorem satInc32_iterate_toNat (n : Nat) (x : BitVec 32) :
    (satInc32^[n] x).toNat = min (x.toNat + n) (2 ^ 32 - 1) := by
  induction n generalizing x with
  | zero =>
    have := x.isLt
    simp only [Function.iterate_zero, id]
    omega
  | succ n ih =>
    rw [Function.iterate_succ_apply, ih, satInc32_toNat]
    omega

/-- The state after `n` short probes in ST_PROBE: SYNC_RETRY counts them, and each issued READ(8) again
(43_resync_fsm.md R185). -/
def State.afterProbes (n : Nat) (s : State) : State :=
  { s with
    syncRetry := satInc32^[n] s.syncRetry
    commands := s.commands ++ List.replicate n (.read 8) }

theorem afterProbes_zero (s : State) : s.afterProbes 0 = s := by
  simp [State.afterProbes]

theorem afterProbes_add (m n : Nat) (s : State) : (s.afterProbes m).afterProbes n = s.afterProbes (n + m) := by
  simp only [State.afterProbes, ← Function.iterate_add_apply, List.append_assoc, List.replicate_append_replicate,
    Nat.add_comm n m]

theorem answer_probe_afterProbes {s : State} {bytes : List Byte} (hf : s.fsm = .probe) (hlen : bytes.length < 8) :
    answer exec (.data bytes) s = .next (s.afterProbes 1) :=
  (answer_probe_short hf hlen).trans (congrArg Host.Outcome.next (probeShort_eq hf))

/-- The step on a supplied response and nothing else. -/
theorem step_respond {s : State} {r : Response} {rest : List Input} (hheld : s.inReset = false)
    (hterm : s.fsm.terminal = false) (hsupply : s.supply = Input.respond r :: rest) :
    step s = answer exec r { s with inputs := rest } :=
  step_receives ⟨hheld, hterm, false, hsupply⟩

/-- A run whose next input is a response answers it and goes on from there. -/
theorem run_respond {s u : State} {r : Response} {rest : List Input} {n : Nat} (hheld : s.inReset = false)
    (hterm : s.fsm.terminal = false) (hsupply : s.supply = Input.respond r :: rest)
    (ha : answer exec r { s with inputs := rest } = .next u) :
    Sys2Proof.core.run (n + 1) s = Sys2Proof.core.run n u :=
  run_succ ((step_respond hheld hterm hsupply).trans ha) n

theorem step_shortProbe {s : State} {bytes : List Byte} {rest : List Input} (hheld : s.inReset = false)
    (hf : s.fsm = .probe) (hlen : bytes.length < 8) (hsupply : s.supply = Input.respond (.data bytes) :: rest) :
    step s = .next { s.afterProbes 1 with inputs := rest } :=
  (step_respond hheld (hf ▸ rfl) hsupply).trans (answer_probe_afterProbes (s := { s with inputs := rest }) hf hlen)

theorem run_shortProbes {s : State} {shorts : List (List Byte)} {rest : List Input} (hheld : s.inReset = false)
    (hf : s.fsm = .probe) (hshort : ∀ b ∈ shorts, b.length < 8)
    (hin : s.inputs = shorts.map (fun b => Input.respond (.data b)) ++ rest) :
    Sys2Proof.core.run shorts.length s = .next { s.afterProbes shorts.length with inputs := rest } := by
  induction shorts generalizing s with
  | nil =>
    subst hin
    rw [List.length_nil, afterProbes_zero]
    rfl
  | cons b shorts ih =>
    obtain ⟨hb, hshorts⟩ := List.forall_mem_cons.mp hshort
    rw [List.length_cons, run_succ (step_shortProbe hheld hf hb (supply_of_inputs hin)), ← afterProbes_add]
    exact ih hheld hf hshorts rfl

/-- Settles O17. -/
theorem probeRetryIsUnbounded : Obligations.ProbeRetryIsUnbounded := fun s shorts _ hheld hf hshort hin =>
  ⟨_, satInc32_iterate_toNat shorts.length s.syncRetry, run_shortProbes hheld hf hshort hin⟩

/-- A response that is a short probe. -/
def Input.IsShortProbe (i : Input) : Prop := ∃ bytes : List Byte, bytes.length < 8 ∧ i = Input.respond (.data bytes)

/-- With an environment that repeats short probes without end, every step of a run is one. -/
theorem run_probesForever (n : Nat) {s : State} (hheld : s.inReset = false) (hf : s.fsm = .probe)
    (hrep : s.repeating ≠ []) (hprobes : ∀ i ∈ s.inputs ++ s.repeating, i.IsShortProbe) :
    ∃ left, Sys2Proof.core.run n s = .next { s.afterProbes n with inputs := left } := by
  induction n generalizing s with
  | zero => exact ⟨s.inputs, by rw [afterProbes_zero]; rfl⟩
  | succ n ih =>
    cases hsupply : s.supply with
    | nil => exact absurd (supply_eq_nil.mp hsupply).2 hrep
    | cons i rest =>
      have hmem : ∀ j ∈ i :: rest, j.IsShortProbe := fun j hj =>
        hprobes j (List.mem_append.mpr (mem_of_mem_supply (hsupply ▸ hj)))
      obtain ⟨⟨bytes, hlen, rfl⟩, hrest⟩ := List.forall_mem_cons.mp hmem
      obtain ⟨left, hrun⟩ := ih (s := { s.afterProbes 1 with inputs := rest }) hheld hf hrep
        (List.forall_mem_append.mpr ⟨hrest, (List.forall_mem_append.mp hprobes).2⟩)
      refine ⟨left, ?_⟩
      rw [run_succ (step_shortProbe hheld hf hlen hsupply), hrun, ← afterProbes_add]
      rfl

/-- Settles O55: the count of probes taken is all that tells the states of an infinite run apart, so the run on any
sequence of short probes can be written down. -/
theorem probeRetryRunsForever : Obligations.ProbeRetryRunsForever := by
  constructor
  · intro s shorts hheld hf hin hne hshort hrep n
    have hprobes : ∀ i ∈ s.inputs ++ s.repeating, i.IsShortProbe := by
      rw [hin, hrep, List.nil_append]
      exact List.forall_mem_map.mpr fun b hb => ⟨b, hshort b hb, rfl⟩
    have hrepeats : s.repeating ≠ [] := by simpa [hrep] using hne
    obtain ⟨left, hrun⟩ := run_probesForever n hheld hf hrepeats hprobes
    exact ⟨_, hrun, hf, fun hnil => hrepeats (supply_eq_nil.mp hnil).2, rfl, rfl,
      satInc32_iterate_toNat n s.syncRetry⟩
  · intro s probes hheld hf hshort
    refine ⟨fun n => s.afterProbes n, afterProbes_zero s, fun n => ⟨?_, hf, rfl, rfl⟩⟩
    have hnext : (s.afterProbes n).afterProbes 1 = s.afterProbes (n + 1) := by rw [afterProbes_add, Nat.add_comm]
    exact (step_shortProbe (s := { s.afterProbes n with inputs := _ }) hheld hf (hshort n) rfl).trans
      (congrArg Host.Outcome.next hnext)

/-! ## Synchronisation -/

/-- The state that a synchronisation with `n` short probes ends in: its five kinds of transition in their order. -/
def State.afterSync (n : Nat) (s : State) : State :=
  (s.tShortAck.junkDone.afterProbes n).probeFull.tLongAck

/-- What a synchronisation writes, and which commands it issues (43_resync_fsm.md R193). -/
theorem afterSync_eq (n : Nat) (s : State) :
    s.afterSync n =
      { s with
        fsm := .run
        timeoutCur := s.params.tLong
        syncRetry := satInc32^[n] s.syncRetry
        commands := s.commands ++ ([.read 16, .read 8] ++ List.replicate n (.read 8) ++
          [.setTimeout s.params.tLong, .read 8]) } :=
  State.ext_fields rfl rfl rfl rfl rfl rfl rfl rfl rfl rfl rfl rfl
    (by simp [State.afterSync, State.afterProbes]) rfl

/-- The responses that end a synchronisation, before the inputs after it. -/
def alignInputs (full : List Byte) (rest : List Input) : List Input :=
  Input.respond (.data full) :: Input.respond .ack :: rest

/-- The responses from the first probe of a synchronisation on. -/
def probeInputs (shorts : List (List Byte)) (full : List Byte) (rest : List Input) : List Input :=
  shorts.map (fun b => Input.respond (.data b)) ++ alignInputs full rest

/-- The responses of one synchronisation (43_resync_fsm.md R193). -/
def syncInputs (junk : List Byte) (shorts : List (List Byte)) (full : List Byte) (rest : List Input) : List Input :=
  Input.respond .ack :: Input.respond (.data junk) :: probeInputs shorts full rest

/-- A synchronisation is the two steps up to the first probe, the short probes, and the two steps after them. -/
theorem run_sync {s : State} {junk full : List Byte} {shorts : List (List Byte)} {rest : List Input}
    (hheld : s.inReset = false) (hf : s.fsm = .setShort) (hjunk : junk.length ≤ 16)
    (hshort : ∀ b ∈ shorts, b.length < 8) (hfull : full.length = 8)
    (hin : s.inputs = syncInputs junk shorts full rest) :
    Sys2Proof.core.run (shorts.length + 4) s = .next { s.afterSync shorts.length with inputs := rest } := by
  calc Sys2Proof.core.run (shorts.length + 4) s
      = Sys2Proof.core.run (shorts.length + 3)
          { s.tShortAck with inputs := Input.respond (.data junk) :: probeInputs shorts full rest } :=
        run_respond hheld (hf ▸ rfl) (supply_of_inputs hin) (answer_setShort_ack hf)
    _ = Sys2Proof.core.run (shorts.length + 2)
          { s.tShortAck.junkDone with inputs := probeInputs shorts full rest } :=
        run_respond hheld rfl rfl (answer_junk_data rfl hjunk)
    _ = Sys2Proof.core.run 2
          { s.tShortAck.junkDone.afterProbes shorts.length with inputs := alignInputs full rest } :=
        run_add (s := { s.tShortAck.junkDone with inputs := _ }) (run_shortProbes hheld rfl hshort rfl) 2
    _ = Sys2Proof.core.run 1
          { (s.tShortAck.junkDone.afterProbes shorts.length).probeFull with inputs := Input.respond .ack :: rest } :=
        run_respond hheld rfl rfl (answer_probe_full rfl hfull)
    _ = .next { s.afterSync shorts.length with inputs := rest } :=
        run_respond hheld rfl rfl (answer_setLong_ack rfl)

/-- Settles O16. -/
theorem synchronizeRun : Obligations.SynchronizeRun := by
  intro s pre junk full shorts rest hheld hf hpre hjunk hshort hfull hin
  refine ⟨_, satInc32_iterate_toNat shorts.length s.syncRetry, ?_⟩
  have hsync : s.inputs = syncInputs junk shorts full rest := by
    simp [hin, syncInputs, probeInputs, alignInputs]
  rw [run_sync hheld hf hjunk hshort hfull hsync, afterSync_eq, hpre]
  simp

/-! ## Frames -/

/-- A full read for each frame, before the inputs after them. -/
def frameInputs (frames : List Frame) (rest : List Input) : List Input :=
  frames.map (fun f => Input.respond (.data (frameBytes f))) ++ rest

/-- A full read in ST_RUN, as the state after the frame's record (43_resync_fsm.md R189). -/
theorem step_frame_record {s : State} {f : Frame} {rest : List Input}
    (h : s.Receives (.data (frameBytes f)) rest) (hf : s.fsm = .run) :
    ∃ e, step s = .next { s.afterRecord (frameRecord s.rom s.cfgRaw f) with inputs := rest, lastExc := e } :=
  (exec_decodeFrame { s with inputs := rest } f).imp fun _ hexec => (step_frame h hf).trans hexec

/-- Every full read of a run in ST_RUN emits the frame's record (43_resync_fsm.md R189). -/
theorem run_frames {s : State} {frames : List Frame} {rest : List Input} (hheld : s.inReset = false)
    (hf : s.fsm = .run) (hin : s.inputs = frameInputs frames rest) :
    ∃ e, Sys2Proof.core.run frames.length s =
      .next { s with
        inputs := rest
        lastExc := e
        commands := s.commands ++ List.replicate frames.length (.read 8)
        records := s.records ++ frames.map (frameRecord s.rom s.cfgRaw) } := by
  induction frames generalizing s with
  | nil =>
    subst hin
    exact ⟨s.lastExc, by simp [Host.Core.run]⟩
  | cons f frames ih =>
    obtain ⟨e, hstep⟩ := step_frame_record ⟨hheld, hf ▸ rfl, false, supply_of_inputs hin⟩ hf
    obtain ⟨e', hrun⟩ := ih (s := { s.afterRecord (frameRecord s.rom s.cfgRaw f) with
      inputs := frameInputs frames rest
      lastExc := e }) hheld rfl rfl
    refine ⟨e', (run_succ hstep _).trans (hrun.trans ?_)⟩
    simp [List.replicate_succ, hf]

/-- Settles O18: the short read and the synchronisation emit nothing and lead back to ST_RUN, where each frame emits
its record. -/
theorem resynchronisedFramesAreEmittedInOrder : Obligations.ResynchronisedFramesAreEmittedInOrder := by
  intro s lost junk full shorts frames rest hheld hf hlost hjunk hshort hfull hin
  have hsupply : s.supply = Input.respond (.data lost) :: syncInputs junk shorts full (frameInputs frames rest) :=
    supply_of_inputs (by simp [hin, syncInputs, probeInputs, alignInputs, frameInputs])
  have hresync : Sys2Proof.core.run (shorts.length + 5) s =
      .next { (s.runShort lost.length).afterSync shorts.length with inputs := frameInputs frames rest } :=
    (run_respond hheld (hf ▸ rfl) hsupply (answer_run_short hf hlost)).trans
      (run_sync hheld rfl hjunk hshort hfull rfl)
  obtain ⟨e, hframes⟩ := run_frames
    (s := { (s.runShort lost.length).afterSync shorts.length with inputs := frameInputs frames rest }) hheld rfl rfl
  have hretry : (satInc32^[shorts.length] 0).toNat = min shorts.length (2 ^ 32 - 1) := by
    simp [satInc32_iterate_toNat]
  exact ⟨_, (run_add hresync frames.length).trans hframes, rfl, rfl, rfl, hretry, satInc32_toNat s.resyncCount, rfl⟩

end Sys2Proof.Machine
end

section
/-!
SUPPORT. O19, TIMEOUT_CUR and the commands: what each transition issues is the command of the state it enters, or
CLOSE, or nothing, and only the two acknowledgements and reset write TIMEOUT_CUR.
-/

namespace Sys2Proof.Machine

/-- A step issues at most one command, and a SET_TIMEOUT only as the command of the state it enters
(43_resync_fsm.md R181). -/
def State.IssuesOnEntry (s t : State) : Prop :=
  ∃ new, t.commands = s.commands ++ new ∧ new.length ≤ 1 ∧
    ∀ ms, .setTimeout ms ∈ new →
      (t.fsm = .setShort ∧ ms = s.params.tShort) ∨ (t.fsm = .setLong ∧ ms = s.params.tLong)

theorem issuesOnEntry_of_same {s t : State} (h : t.commands = s.commands) : s.IssuesOnEntry t :=
  ⟨[], by simp [h], by simp, by simp⟩

/-- SET_TIMEOUT is the command of two states (43_resync_fsm.md R181). -/
theorem commandOf_eq_setTimeout {p : Params} {f : FsmState} {ms : BitVec 16}
    (h : commandOf p f = some (.setTimeout ms)) :
    (f = .setShort ∧ ms = p.tShort) ∨ (f = .setLong ∧ ms = p.tLong) := by
  cases f <;> cases h
  · exact .inl ⟨rfl, rfl⟩
  · exact .inr ⟨rfl, rfl⟩

theorem issuesOnEntry_of_entered {s t : State}
    (h : t.commands = s.commands ++ (commandOf s.params t.fsm).toList) : s.IssuesOnEntry t :=
  ⟨_, h, Option.length_toList_le, fun _ hms => commandOf_eq_setTimeout (Option.mem_toList.mp hms)⟩

theorem issuesOnEntry_cancel (s : State) : s.IssuesOnEntry s.cancel :=
  ⟨[.close], cancel_commands s, by simp, by simp⟩

/-- A response writes TIMEOUT_CUR only as the Ack of a SET_TIMEOUT, and issues the command of the state entered. -/
theorem answer_timeout {r : Response} {s t : State} (h : answer exec r s = .next t)
    (hterm : s.fsm.terminal = false) :
    (t.timeoutCur = s.timeoutCur ∨ (s.fsm = .setShort ∧ t.fsm = .junk ∧ t.timeoutCur = s.params.tShort) ∨
      (s.fsm = .setLong ∧ t.fsm = .run ∧ t.timeoutCur = s.params.tLong)) ∧ s.IssuesOnEntry t := by
  obtain ⟨hf, -, rfl⟩ | ⟨-, -, rfl⟩ | ⟨-, -, rfl⟩ | ⟨-, -, rfl⟩ | ⟨hf, -, rfl⟩ | ⟨-, bytes, -, -, rfl⟩ |
    ⟨-, f, -, hexec⟩ | ⟨-, rfl⟩ := answer_cases hterm h
  · exact ⟨.inr (.inl ⟨hf, rfl, rfl⟩), issuesOnEntry_of_entered rfl⟩
  · exact ⟨.inl rfl, issuesOnEntry_of_entered rfl⟩
  · exact ⟨.inl rfl, issuesOnEntry_of_entered rfl⟩
  · exact ⟨.inl rfl, issuesOnEntry_of_entered rfl⟩
  · exact ⟨.inr (.inr ⟨hf, rfl, rfl⟩), issuesOnEntry_of_entered rfl⟩
  · exact ⟨.inl rfl, issuesOnEntry_of_entered rfl⟩
  · obtain ⟨e, he⟩ := exec_decodeFrame s f
    obtain rfl := Host.Outcome.next.inj (he.symm.trans hexec)
    exact ⟨.inl rfl, issuesOnEntry_of_entered rfl⟩
  · exact ⟨.inl rfl, issuesOnEntry_of_same (streamFail_commands s)⟩

/-- Settles O19, by the cases of a step. -/
theorem timeoutWrittenByAcksOnly : Obligations.TimeoutWrittenByAcksOnly := by
  intro s t hstep
  obtain ⟨-, rfl⟩ | ⟨i, rest, u, hsupply, rfl, hcases⟩ := step_cases hstep
  · exact ⟨.inl rfl, issuesOnEntry_of_same rfl⟩
  · obtain ⟨hreset, rfl⟩ | ⟨-, hheld, rfl⟩ | ⟨-, -, -, rfl⟩ | ⟨-, -, -, -, rfl⟩ | ⟨-, -, -, -, -, rfl⟩ |
      ⟨-, -, hterm, -, r, -, ha⟩ := hcases
    · exact ⟨.inr (.inr (.inr ⟨i, rest, hsupply, .inl hreset, rfl⟩)), issuesOnEntry_of_same rfl⟩
    · exact ⟨.inr (.inr (.inr ⟨i, rest, hsupply, .inr hheld, rfl⟩)), issuesOnEntry_of_entered rfl⟩
    · exact ⟨.inl rfl, issuesOnEntry_of_same rfl⟩
    · exact ⟨.inl rfl, issuesOnEntry_cancel _⟩
    · exact ⟨.inl rfl, issuesOnEntry_of_same rfl⟩
    · obtain ⟨hkept | hshort | hlong, hissues⟩ := answer_timeout ha hterm
      · exact ⟨.inl hkept, hissues⟩
      · exact ⟨.inr (.inl hshort), hissues⟩
      · exact ⟨.inr (.inr (.inl hlong)), hissues⟩

end Sys2Proof.Machine
end

section
/-!
SUPPORT. O50, the raw passthrough: RAW emits its record and enters ST_RUN again, and raw mode checks neither the digits
nor the key.
-/

namespace Sys2Proof.Machine

/-- RAW's whole effect: the record and READ(8), with no event raised (44_raw_passthrough.md R220). -/
theorem exec_raw (bf : BitField) (r : RawDigits) (s : State) :
    exec (.raw bf r) s = .next (s.afterRecord (rawRecord bf r)) := rfl

/-- The key and sign fields of a RAW record as bits of its BitField (30_encoding.md R84). -/
theorem rawRecord_eq (bf : BitField) (r : RawDigits) :
    rawRecord bf r = .raw bf (bf.extractLsb' 3 9) (bf.getLsbD 21) (digitsField r) := rfl

/-- With CFG_RAW = 1 the decoder takes the BitField and the digit bytes as they come, on any ROM (30_encoding.md
R92). -/
theorem decodeFrame_rawMode (t : ModeTable) (f : Frame) :
    decodeFrame t true f = .raw (extractBf f) (extractDig f) := by
  simp only [decodeFrame, if_true]

/-- Settles O50, from RAW's effect, the decoder in raw mode, and the DIGITS field as a number. -/
theorem rawFramesPassThrough : Obligations.RawFramesPassThrough :=
  fun s => ⟨fun bf r => rawRecord_eq bf r ▸ exec_raw bf r s, fun f => decodeFrame_rawMode s.rom f,
    fun f => digitsField_toNat (extractDig f)⟩

end Sys2Proof.Machine
end

section
/-!
SUPPORT. O20, what writes LAST_EXC: the event an input causes, one lemma for each kind of input, and the code that each
answer of the resync state machine leaves.
-/

namespace Sys2Proof.Machine

/-- The event a full ST_RUN read raises, in the order BadDigit, UnknownMode (60_exceptions.md R239); raw mode raises
none (44_raw_passthrough.md R220). `causedEvent_frame` ties it to the statement's `causedEvent`. -/
def frameEvent (t : ModeTable) (cfgRaw : Bool) (f : Frame) : Option ExcCode :=
  if cfgRaw then none
  else if checkDig (extractDig f) = none then some .badDigit
  else if t.lookup (extractKey (extractBf f)) = none then some .unknownMode
  else none

/-! ## The event an input causes -/

theorem causedEvent_cancel {s : State} {i : Input} (hcancel : i.cancel = true) :
    causedEvent s i = some .userCancellation := by
  simp only [causedEvent, hcancel, if_true]

section
variable {s : State} {i : Input} (hcancel : i.cancel = false)
include hcancel

theorem causedEvent_idle (hresp : i.resp = none) : causedEvent s i = none := by
  simp [causedEvent, hcancel, hresp]

theorem causedEvent_ack (hresp : i.resp = some .ack) : causedEvent s i = none := by
  simp [causedEvent, hcancel, hresp]

theorem causedEvent_fail (hresp : i.resp = some .fail) : causedEvent s i = some .streamFailure := by
  simp [causedEvent, hcancel, hresp]

/-- The reads of a synchronisation raise nothing, whatever their number of bytes (43_resync_fsm.md R184 to R186). -/
theorem causedEvent_data_of_ne_run {bytes : List Byte} (hresp : i.resp = some (.data bytes)) (hf : s.fsm ≠ .run) :
    causedEvent s i = none := by
  simp [causedEvent, hcancel, hresp, hf]

theorem causedEvent_shortRead {bytes : List Byte} (hresp : i.resp = some (.data bytes)) (hf : s.fsm = .run)
    (hlen : bytes.length < 8) : causedEvent s i = some .synchronizationLoss := by
  simp [causedEvent, hcancel, hresp, hf, hlen]

theorem causedEvent_frame {f : Frame} (hresp : i.resp = some (.data (frameBytes f))) (hf : s.fsm = .run) :
    causedEvent s i = frameEvent s.rom s.cfgRaw f := by
  simp [causedEvent, frameEvent, hcancel, hresp, hf]

end

/-! ## The code a step leaves -/

/-- Running a frame writes LAST_EXC with the event of a failed digit check or lookup, and otherwise leaves it. -/
theorem exec_decodeFrame_lastExc {s t : State} {f : Frame} (h : exec (decodeFrame s.rom s.cfgRaw f) s = .next t) :
    t.lastExc = (frameEvent s.rom s.cfgRaw f).getD s.lastExc := by
  cases hraw : s.cfgRaw with
  | true =>
    rw [hraw, decodeFrame_rawMode, exec_raw] at h
    cases h
    rfl
  | false =>
    rw [hraw] at h
    obtain ⟨hc, hi⟩ | ⟨d, hc, hl, hi⟩ | ⟨d, m, hc, hl, hi⟩ := decodeFrame_cases s.rom f
    · rw [hi] at h
      cases h
      simp [frameEvent, hc]
    · rw [hi, exec_unknown] at h
      cases h
      simp [frameEvent, hc, hl]
    · rw [hi, exec_selectRow] at h
      cases h
      simp [frameEvent, hc, hl]

/-- A response leaves LAST_EXC with the code of the event it causes (60_exceptions.md R248). -/
theorem answer_lastExc {i : Input} {r : Response} {s t : State} (h : answer exec r s = .next t)
    (hterm : s.fsm.terminal = false) (hcancel : i.cancel = false) (hresp : i.resp = some r) :
    t.lastExc = (causedEvent s i).getD s.lastExc := by
  obtain ⟨-, rfl, rfl⟩ | ⟨hf, ⟨bytes, rfl, -⟩, rfl⟩ | ⟨hf, ⟨bytes, rfl, -⟩, rfl⟩ | ⟨hf, ⟨bytes, rfl, -⟩, rfl⟩ |
    ⟨-, rfl, rfl⟩ | ⟨hf, bytes, rfl, hlen, rfl⟩ | ⟨hf, f, rfl, hexec⟩ | ⟨rfl, rfl⟩ := answer_cases hterm h
  · rw [causedEvent_ack hcancel hresp, tShortAck_lastExc, Option.getD_none]
  · rw [causedEvent_data_of_ne_run hcancel hresp (by simp [hf]), junkDone_lastExc, Option.getD_none]
  · rw [causedEvent_data_of_ne_run hcancel hresp (by simp [hf]), probeShort_lastExc, Option.getD_none]
  · rw [causedEvent_data_of_ne_run hcancel hresp (by simp [hf]), probeFull_lastExc, Option.getD_none]
  · rw [causedEvent_ack hcancel hresp, tLongAck_lastExc, Option.getD_none]
  · rw [causedEvent_shortRead hcancel hresp hf hlen, runShort_lastExc, Option.getD_some]
  · rw [causedEvent_frame hcancel hresp hf, exec_decodeFrame_lastExc hexec]
  · rw [causedEvent_fail hcancel hresp, streamFail_lastExc, Option.getD_some]

/-- Settles O20, by what the input holds: CANCEL, nothing, or a response. -/
theorem lastExcWrittenByEventsOnly : Obligations.LastExcWrittenByEventsOnly := by
  intro s t i rest hsupply hreset hheld hterm hstep
  cases hcancel : i.cancel with
  | true =>
    obtain rfl := Host.Outcome.next.inj ((step_cancel hsupply hreset hheld hterm hcancel).symm.trans hstep)
    rw [causedEvent_cancel hcancel, cancel_lastExc, Option.getD_some]
  | false =>
    cases hresp : i.resp with
    | none =>
      obtain rfl := Host.Outcome.next.inj
        (((noInputNoChange s).2 i rest hsupply hreset hheld hcancel hresp).symm.trans hstep)
      rw [causedEvent_idle hcancel hresp, Option.getD_none]
    | some r =>
      rw [input_eq_of_resp hreset hcancel hresp] at hsupply
      have ha := (step_receives ⟨hheld, hterm, i.rawMode, hsupply⟩).symm.trans hstep
      exact answer_lastExc (s := { s with inputs := rest }) ha hterm hcancel hresp

end Sys2Proof.Machine
end

section
/-!
SUPPORT. O3, the order RESET, CANCEL, response: what an input holds beside RESET or CANCEL makes no difference.
-/

namespace Sys2Proof.Machine

/-- With RESET asserted or just deasserted, RESET and RAW_MODE are all that is read of an input (60_exceptions.md
R238). -/
theorem present_reset_congr {s : State} {i : Input} (h : i.reset = true ∨ s.inReset = true) (cancel : Bool)
    (resp : Option Response) : present exec { i with cancel := cancel, resp := resp } s = present exec i s := by
  obtain hreset | hheld := h
  · simp only [present, hreset, if_true]
  · simp only [present, hheld, if_true]

theorem step_inputs_cons (s : State) (i : Input) (rest : List Input) :
    step { s with inputs := i :: rest } = present exec i { s with inputs := rest } := step_of_supply rfl

/-- Settles O3: the reset step, the step on CANCEL, and the step of a terminal state. -/
theorem resetThenCancelThenResponse : Obligations.ResetThenCancelThenResponse := by
  refine ⟨fun s i rest cancel resp h => ?_, fun s i rest resp hreset hheld hterm hcancel => ?_,
    fun s i rest hsupply hreset hheld hf => step_terminal hsupply hreset hheld (terminal_iff.mpr (.inl hf))⟩
  · rw [step_inputs_cons, step_inputs_cons]
    exact present_reset_congr (s := { s with inputs := rest }) h cancel resp
  · have hstep := step_cancel (s := { s with inputs := { i with resp := resp } :: rest }) rfl hreset hheld hterm hcancel
    exact hstep.trans (congrArg Host.Outcome.next (cancel_eq _))

end Sys2Proof.Machine
end

section
/-!
SUPPORT. O56, the infinite run in ST_RUN: with an environment that supplies full frames without end, a run of any
length is a run of frame steps.
-/

namespace Sys2Proof.Machine

/-- A response that is a full read of one of the given frames. -/
def Input.IsFrameOf (frames : List Frame) (i : Input) : Prop :=
  ∃ f ∈ frames, i = Input.respond (.data (frameBytes f))

/-- With an environment that repeats full frames without end, every step of a run emits the record of one of them
and issues READ(8) (43_resync_fsm.md R189). -/
theorem run_framesForever (n : Nat) {s : State} {frames : List Frame} (hheld : s.inReset = false)
    (hf : s.fsm = .run) (hrep : s.repeating ≠ []) (hframes : ∀ i ∈ s.inputs ++ s.repeating, i.IsFrameOf frames) :
    ∃ left e taken, taken.length = n ∧ taken ⊆ frames ∧
      Sys2Proof.core.run n s =
        .next { s with
          inputs := left
          lastExc := e
          commands := s.commands ++ List.replicate n (.read 8)
          records := s.records ++ taken.map (frameRecord s.rom s.cfgRaw) } := by
  induction n generalizing s with
  | zero => exact ⟨s.inputs, s.lastExc, [], rfl, List.nil_subset frames, by simp [Host.Core.run]⟩
  | succ n ih =>
    cases hsupply : s.supply with
    | nil => exact absurd (supply_eq_nil.mp hsupply).2 hrep
    | cons i rest =>
      have hmem : ∀ j ∈ i :: rest, j.IsFrameOf frames := fun j hj =>
        hframes j (List.mem_append.mpr (mem_of_mem_supply (hsupply ▸ hj)))
      obtain ⟨⟨f, hfmem, rfl⟩, hrest⟩ := List.forall_mem_cons.mp hmem
      obtain ⟨e, hstep⟩ := step_frame_record ⟨hheld, hf ▸ rfl, false, hsupply⟩ hf
      obtain ⟨left, e', taken, hlen, hsub, hrun⟩ := ih
        (s := { s.afterRecord (frameRecord s.rom s.cfgRaw f) with inputs := rest, lastExc := e }) hheld rfl hrep
        (List.forall_mem_append.mpr ⟨hrest, (List.forall_mem_append.mp hframes).2⟩)
      refine ⟨left, e', f :: taken, congrArg (· + 1) hlen, List.cons_subset.mpr ⟨hfmem, hsub⟩,
        (run_succ hstep n).trans (hrun.trans ?_)⟩
      simp [List.replicate_succ, hf]

/-- Settles O56: the environment never runs out of full frames, since it repeats nothing else. -/
theorem steadyStateRunsForever : Obligations.SteadyStateRunsForever := by
  intro s frames hheld hf hin hne hrep n
  have hrepeats : s.repeating ≠ [] := by simpa [hrep] using hne
  have hframes : ∀ i ∈ s.inputs ++ s.repeating, i.IsFrameOf frames := by
    rw [hin, hrep, List.nil_append]
    exact List.forall_mem_map.mpr fun f hmem => ⟨f, hmem, rfl⟩
  obtain ⟨left, e, taken, hlen, hsub, hrun⟩ := run_framesForever n hheld hf hrepeats hframes
  exact ⟨_, taken.map (frameRecord s.rom s.cfgRaw), hrun, hf, fun hnil => hrepeats (supply_eq_nil.mp hnil).2, rfl, rfl,
    (List.length_map _).trans hlen, List.map_subset _ hsub⟩

end Sys2Proof.Machine
end

section
/-!
SUPPORT. O2, RESET asserted and deasserted: the step that holds reset, beside the one that leaves it.
-/

namespace Sys2Proof.Machine

/-- RESET asserted, in any state: whatever stands beside it is dropped (60_exceptions.md R238). -/
theorem step_holdReset {s : State} {i : Input} {rest : List Input} (h : s.supply = i :: rest)
    (hreset : i.reset = true) : step s = .next (State.holdReset i.rawMode { s with inputs := rest }) := by
  simp [step_of_supply h, present, hreset]

theorem holdReset_cmd (rawMode : Bool) (s : State) : (s.holdReset rawMode).cmd = none := rfl

theorem leaveReset_cmd (rawMode : Bool) (s : State) :
    (s.leaveReset rawMode).cmd = some (.setTimeout s.params.tShort) := rfl

/-- Settles O2: the two reset steps end in holdReset and leaveReset, which write what the statement names. -/
theorem resetAssertedThenDeasserted : Obligations.ResetAssertedThenDeasserted := by
  refine fun s i rest hsupply => ⟨fun hreset => ?_, fun hreset hheld _ _ => ?_⟩
  · exact ⟨_, step_holdReset hsupply hreset, holdReset_cmd .., congrArg cmdCode (holdReset_cmd ..), rfl⟩
  · exact ⟨_, step_leaveReset hsupply hreset hheld, leaveReset_cmd .., rfl⟩

end Sys2Proof.Machine
end
